-- ==== Sys2Proof/Word.lean ====
section
/-! DEFINITION. The word types of the core: a byte, a 32-bit word of the key schedule, a block, the round-key store
(00_scope.md R13, R14; 10_state.md R25 to R27). -/

namespace Sys2Proof

/-- An unsigned 8-bit value, bit 7 most significant (R13). -/
abbrev Byte := BitVec 8

/-- An unsigned 32-bit value, bit 31 most significant (R13). Only the key schedule uses words (R67). -/
abbrev Word := BitVec 32

/-- A sequence of exactly 16 bytes; byte 0 is the first byte on a stream (R14). -/
abbrev Block := Vector Byte 16

/-- The block buffers of PAD and UNPAD, of `BSZ_MAX` = 255 bytes (R30, R32). -/
abbrev PadBuffer := Vector Byte 255

/-- The contents of the round-key store: eleven blocks (R27). -/
abbrev RoundKeys := Vector Block 11

/-- The block whose sixteen bytes are zero. -/
def zeroBlock : Block := Vector.replicate 16 0

end Sys2Proof
end

