-- ==== Sys2Proof/Config.lean ====
section
/-! DEFINITION. What is fixed for this hardware: the parameters of 00_scope.md R11, and the free values, which the
spec leaves without a value (93_implementation_defined.md U5). -/

namespace Sys2Proof.Config

/-- `NR`, the number of rounds (R11). -/
abbrev nr : Nat := 10

/-- `NRK`, the number of round-key blocks in a valid schedule (R11). -/
abbrev nrk : Nat := 11

/-- `POLY_LOW`, the 8-bit constant exclusive-ored in on overflow (R11). -/
abbrev polyLow : Byte := 0x1B

/-- `RC_INIT`, the first round constant (R11). -/
abbrev rcInit : Byte := 0x01

/-- FREE VALUE (log 5): what stands on `out_data` at the edge numbered by the argument while `out_valid` = 0.
The spec gives it no value (R110, U5). -/
opaque undrivenOutData : Nat → BitVec 8

/-- FREE VALUE (log 5): what stands on `out_term_code` at the edge numbered by the argument while
`out_term_valid` = 0. The spec gives it no value (R110, U5). -/
opaque undrivenOutTermCode : Nat → BitVec 3

end Sys2Proof.Config
end

