-- ==== Sys2Proof/Syntax.lean ====
section
/-! DEFINITION. The command set: one constructor per row of spec/opcode_table.json (30_encoding.md R115). -/

namespace Sys2Proof

/-- The key-size selector `KSZ` = `cmd[7:6]` (R107). The suffixes are those of R118. -/
inductive KeySize
  /-- `KSZ` = 0: a 128-bit key, the only size with a schedule. -/
  | k128
  /-- `KSZ` = 1, suffix `.K192`: the empty schedule. -/
  | k192
  /-- `KSZ` = 2, suffix `.K256`: the empty schedule. -/
  | k256
  /-- `KSZ` = 3, suffix `.K3`: no size assigned, the empty schedule. -/
  | k3
  deriving DecidableEq, Repr

/-- One command of the core, without the operands that stand on the ports (R106). -/
inductive Instr
  | subBytes
  | invSubBytes
  | shiftRows
  | invShiftRows
  | mixColumns
  | invMixColumns
  | addRoundKey
  | keySched (ksz : KeySize)
  | blockEnc (ksz : KeySize)
  | blockDec (ksz : KeySize)
  | ecbEnc (ksz : KeySize)
  | ecbDec (ksz : KeySize)
  | cbcEnc (ksz : KeySize)
  | cbcDec (ksz : KeySize)
  | ecbEncPad (ksz : KeySize)
  | ecbDecUnpad (ksz : KeySize)
  | cbcEncPad (ksz : KeySize)
  | cbcDecUnpad (ksz : KeySize)
  | pad
  | unpad
  deriving DecidableEq, Repr

end Sys2Proof
end

