-- ==== Sys2Proof/WellFormed.lean ====
section
/-! DEFINITION. When a command may stand with its operands: the last condition of 30_encoding.md R109, the one
condition on legality that the command word alone does not settle. -/

namespace Sys2Proof

/-- A command with the block size that stands on `blksz` beside it is well formed: `blksz` is not 0 when the
command uses PAD or UNPAD (R109, R267). Every other operand may have any value (R106). -/
def Instr.wellFormed (blksz : BitVec 8) : Instr → Bool
  | .subBytes | .invSubBytes | .shiftRows | .invShiftRows | .mixColumns | .invMixColumns | .addRoundKey => true
  | .keySched _ | .blockEnc _ | .blockDec _ => true
  | .ecbEnc _ | .ecbDec _ | .cbcEnc _ | .cbcDec _ => true
  | .ecbEncPad _ | .ecbDecUnpad _ | .cbcEncPad _ | .cbcDecUnpad _ | .pad | .unpad => blksz != 0

end Sys2Proof
end

