-- ==== Sys2Proof/Decode.lean ====
section
/-! DEFINITION. Decoding and encoding the 8-bit command word `KSZ[7:6] PADEN[5] DIR[4] OP[3:0]`
(30_encoding.md R101 to R107, R109, R115). -/

namespace Sys2Proof

/-- `OP` = `cmd[3:0]` (R101). -/
def opField (w : BitVec 8) : BitVec 4 := w.extractLsb' 0 4

/-- `DIR` = `cmd[4]` (R101): 0 forward, 1 inverse. -/
def dirField (w : BitVec 8) : BitVec 1 := w.extractLsb' 4 1

/-- `PADEN` = `cmd[5]` (R101): 1 adds the PKCS#7 unit. -/
def padenField (w : BitVec 8) : BitVec 1 := w.extractLsb' 5 1

/-- `KSZ` = `cmd[7:6]` (R101). -/
def kszField (w : BitVec 8) : BitVec 2 := w.extractLsb' 6 2

/-- The key size a `KSZ` field selects (R107). -/
def decodeKeySize (k : BitVec 2) : KeySize :=
  if k = 0 then .k128 else if k = 1 then .k192 else if k = 2 then .k256 else .k3

/-- A command whose `KSZ` must be 0 (R107): with another value the word is reserved. -/
def fixedSize (k : BitVec 2) (i : Instr) : Option Instr := if k = 0 then some i else none

/-- The command a word stands for, `none` where R109 reserves the word. Rows as in R102 to R104. -/
def decode (w : BitVec 8) : Option Instr :=
  let k := kszField w
  let n := decodeKeySize k
  match (opField w).toNat, (dirField w).toNat, (padenField w).toNat with
  | 0, 0, 0 => fixedSize k .subBytes
  | 0, 1, 0 => fixedSize k .invSubBytes
  | 1, 0, 0 => fixedSize k .shiftRows
  | 1, 1, 0 => fixedSize k .invShiftRows
  | 2, 0, 0 => fixedSize k .mixColumns
  | 2, 1, 0 => fixedSize k .invMixColumns
  | 3, 0, 0 => fixedSize k .addRoundKey
  | 4, 0, 0 => some (.keySched n)
  | 5, 0, 0 => some (.blockEnc n)
  | 5, 1, 0 => some (.blockDec n)
  | 6, 0, 0 => some (.ecbEnc n)
  | 6, 1, 0 => some (.ecbDec n)
  | 7, 0, 0 => some (.cbcEnc n)
  | 7, 1, 0 => some (.cbcDec n)
  | 6, 0, 1 => some (.ecbEncPad n)
  | 6, 1, 1 => some (.ecbDecUnpad n)
  | 7, 0, 1 => some (.cbcEncPad n)
  | 7, 1, 1 => some (.cbcDecUnpad n)
  | 8, 0, 0 => fixedSize k .pad
  | 8, 1, 0 => fixedSize k .unpad
  | _, _, _ => none

/-- The `KSZ` field of a key size (R107). -/
def encodeKeySize : KeySize → BitVec 2
  | .k128 => 0
  | .k192 => 1
  | .k256 => 2
  | .k3 => 3

/-- The word made of its four fields, `KSZ` topmost (R101). -/
def packWord (k : BitVec 2) (paden dir : BitVec 1) (op : BitVec 4) : BitVec 8 := k ++ paden ++ dir ++ op

/-- The command word of a command, from the columns OP, DIR, PADEN, KSZ of R115. -/
def encode : Instr → BitVec 8
  | .subBytes => packWord 0 0 0 0
  | .invSubBytes => packWord 0 0 1 0
  | .shiftRows => packWord 0 0 0 1
  | .invShiftRows => packWord 0 0 1 1
  | .mixColumns => packWord 0 0 0 2
  | .invMixColumns => packWord 0 0 1 2
  | .addRoundKey => packWord 0 0 0 3
  | .keySched k => packWord (encodeKeySize k) 0 0 4
  | .blockEnc k => packWord (encodeKeySize k) 0 0 5
  | .blockDec k => packWord (encodeKeySize k) 0 1 5
  | .ecbEnc k => packWord (encodeKeySize k) 0 0 6
  | .ecbDec k => packWord (encodeKeySize k) 0 1 6
  | .cbcEnc k => packWord (encodeKeySize k) 0 0 7
  | .cbcDec k => packWord (encodeKeySize k) 0 1 7
  | .ecbEncPad k => packWord (encodeKeySize k) 1 0 6
  | .ecbDecUnpad k => packWord (encodeKeySize k) 1 1 6
  | .cbcEncPad k => packWord (encodeKeySize k) 1 0 7
  | .cbcDecUnpad k => packWord (encodeKeySize k) 1 1 7
  | .pad => packWord 0 0 0 8
  | .unpad => packWord 0 0 1 8

/-- The command the decoder reads from a word of the opcode table: one 8-bit command word (R100). -/
def decodeTableWord (nbits w : Nat) : Option Instr :=
  if nbits = 8 ∧ w < 256 then decode (BitVec.ofNat 8 w) else none

end Sys2Proof
end

