-- ==== Sys2Proof/Machine/State.lean ====
section
/-! DEFINITION. The state of the core (10_state.md), the host that drives its ports (45_stream_pipeline.md R303), the
reasons a step can stop, and the state after reset (10_state.md R40, 70_reset_and_hazards.md R390). -/

namespace Sys2Proof.Machine

/-- The four errors the core can report (60_exceptions.md R340). -/
inductive Err
  /-- LengthContractError (R341). -/
  | lce
  /-- InvalidScheduleError (R342). -/
  | ise
  /-- TransformError (R343). -/
  | te
  /-- PaddingAmountError (R345). -/
  | pae
  deriving DecidableEq, Repr

/-- A terminal (00_scope.md R18): `eos` is the spec's `End`, the clean end of stream; `fail e` its `Fail(e)`. -/
inductive Terminal
  | eos
  | fail (e : Err)
  deriving DecidableEq, Repr

/-- What a channel pair carries: a byte on the data channel or the terminal on the error channel (R293). -/
inductive Item
  | data (b : Byte)
  | term (t : Terminal)
  deriving DecidableEq, Repr

/-- The top control state (R21). -/
inductive Top
  | idle
  | run
  deriving DecidableEq, Repr

/-- The next primitive the sequencer issues: `PH_ARK0`, `PH_SUB`, `PH_SHIFT`, `PH_MIX`, `PH_ARK`, `PH_DONE` (R31). -/
inductive Phase
  | ark0
  | sub
  | shift
  | mix
  | ark
  | done
  deriving DecidableEq, Repr

/-- `OST`, the control state of ONESHOT (R35). -/
inductive OneshotState
  | idle
  | compute
  | emit
  | term (t : Terminal)
  | done
  deriving DecidableEq, Repr

/-- `PST`, the control state of PAD (R35). -/
inductive PadState
  | idle
  | fill
  | flush
  | term (t : Terminal)
  | done
  deriving DecidableEq, Repr

/-- `EST`, the control state of ENGINE (R35). -/
inductive EngineState
  | idle
  | fill
  | xform
  | drain
  | term (t : Terminal)
  | done
  deriving DecidableEq, Repr

/-- `UST`, the control state of UNPAD (R35). -/
inductive UnpadState
  | idle
  | fill
  | flush
  | term (t : Terminal)
  | done
  deriving DecidableEq, Repr

/-- The four workers (45_stream_pipeline.md R291). -/
inductive Worker
  | oneshot
  | pad
  | engine
  | unpad
  deriving DecidableEq, Repr

/-- One offer the host makes on `CH_IN`. -/
inductive Offer
  /-- `in_valid` = 1 with this byte on `in_data`. -/
  | byte (b : Byte)
  /-- `in_term_valid` = 1; `failed` is `in_term_err` (R113). -/
  | term (failed : Bool)
  /-- Both at once: the race of R303. -/
  | both (b : Byte) (failed : Bool)
  deriving DecidableEq, Repr

/-- One command the host offers: the wires `cmd`, `key`, `iv`, `blk`, `blksz` (R105), and the stream it will offer on
`CH_IN` once the command is accepted. -/
structure Job where
  cmd : BitVec 8
  key : BitVec 128
  iv : BitVec 128
  blk : BitVec 128
  blksz : BitVec 8
  feed : List Offer
  /-- Offers left behind by the command before stay up and come first, instead of being withdrawn (R304; log 8). -/
  keepStale : Bool
  deriving DecidableEq, Repr

/-- What the host does at one clock edge, and what the open schedule chooses there (R301, R303, R305). -/
structure Move where
  /-- the wire `rst` -/
  rst : Bool
  /-- the wire `abort` -/
  abort : Bool
  /-- the host asserts `cmd_valid`, if it has a command to offer -/
  offerCmd : Bool
  /-- the host makes its next offer on `CH_IN`, if it has one -/
  offerIn : Bool
  /-- the wire `out_ready` -/
  outReady : Bool
  /-- the wire `out_term_ready` -/
  outTermReady : Bool
  /-- an internal step or internal transfer that is enabled falls on this edge (R305) -/
  go : Bool
  /-- if a byte and the input terminal are offered together, the terminal is taken (R303) -/
  raceTerm : Bool
  deriving DecidableEq, Repr

/-- The move of a host that offers and takes all it can, at an edge on which every enabled core step falls. -/
def Move.eager : Move :=
  { rst := false, abort := false, offerCmd := true, offerIn := true, outReady := true, outTermReady := true,
    go := true, raceTerm := false }

/-- The host: what stands on the input wires and what it will do (R303; log 6). Not part of the core. -/
structure Env where
  /-- `job` is a command the host has still to have accepted -/
  cmdValid : Bool
  /-- what stands on the command and operand wires -/
  job : Job
  /-- the commands the host offers after `job` -/
  jobs : List Job
  /-- the offers on `CH_IN` still to be made, in order -/
  input : List Offer
  /-- the items taken on `CH_OUT`, oldest first -/
  taken : List Item
  /-- the moves at the coming edges -/
  moves : List Move
  /-- the host's move at every edge after those, for ever: it may stop taking output for good (R395) -/
  rest : Move
  deriving DecidableEq, Repr

/-- The command latch and the operand latches, written only by command acceptance (R22, R23). -/
structure Latches where
  /-- `CMDR` (R22) -/
  cmdr : BitVec 8
  /-- `KEY` (R23) -/
  key : Block
  /-- `IVR` (R23) -/
  ivr : Block
  /-- `BLK` (R23) -/
  blk : Block
  /-- `BSZ` (R23) -/
  bsz : BitVec 8
  deriving DecidableEq, Repr

/-- The expander registers and the round-key store, written only by the key expander and reset (R26, R27, R390). -/
structure ScheduleRegs where
  /-- `W[0..3]` (R26) -/
  w : Vector Word 4
  /-- `RC` (R26) -/
  rc : BitVec 8
  /-- `KRND` (R26) -/
  krnd : BitVec 4
  /-- `RK[0..10]` (R27) -/
  rk : RoundKeys
  /-- `RKN` (R27) -/
  rkn : BitVec 4
  deriving DecidableEq, Repr

/-- The state register and the sequencer state of the block core (R25, R31). -/
structure CoreRegs where
  /-- `S[0..15]` (R25) -/
  sreg : Block
  /-- `RND` (R31) -/
  rnd : BitVec 4
  /-- `PH` (R31) -/
  ph : Phase
  deriving DecidableEq, Repr

/-- The registers of ONESHOT (R33, R35). -/
structure OneshotRegs where
  /-- `OI` (R33) -/
  oi : BitVec 4
  /-- `OJ` (R33) -/
  oj : BitVec 5
  /-- `OST` (R35) -/
  ost : OneshotState
  deriving DecidableEq, Repr

/-- The registers of ENGINE (R29, R35). -/
structure EngineRegs where
  /-- `IBUF[0..15]` (R29) -/
  ibuf : Block
  /-- `ICNT` (R29) -/
  icnt : BitVec 5
  /-- `OBUF[0..15]` (R29) -/
  obuf : Block
  /-- `OCNT` (R29) -/
  ocnt : BitVec 5
  /-- `FB[0..15]` (R29) -/
  fb : Block
  /-- `EST` (R35) -/
  est : EngineState
  deriving DecidableEq, Repr

/-- The registers of PAD (R30, R35). -/
structure PadRegs where
  /-- `PBUF[0..254]` (R30) -/
  pbuf : PadBuffer
  /-- `PCNT` (R30) -/
  pcnt : BitVec 8
  /-- `POUT` (R30) -/
  pout : BitVec 8
  /-- `PLAST` (R30) -/
  plast : Bool
  /-- `PST` (R35) -/
  pst : PadState
  deriving DecidableEq, Repr

/-- The registers of UNPAD (R32, R35). -/
structure UnpadRegs where
  /-- `UBUF[0..254]` (R32) -/
  ubuf : PadBuffer
  /-- `UCNT` (R32) -/
  ucnt : BitVec 8
  /-- `UOUT` (R32) -/
  uout : BitVec 8
  /-- `ULIM` (R32) -/
  ulim : BitVec 8
  /-- `UPEND` (R32) -/
  upend : BitVec 8
  /-- `UHAVE` (R32) -/
  uhave : Bool
  /-- `ULAST` (R32) -/
  ulast : Bool
  /-- `UST` (R35) -/
  ust : UnpadState
  deriving DecidableEq, Repr

/-- The state of the core (R20), grouped by the unit that owns the registers (R38), every register under the spec's name
in lower case (`S` is `sreg`); and the host beside it. -/
structure State where
  /-- `TOP` (R21) -/
  top : Top
  /-- `CMDR`, `KEY`, `IVR`, `BLK`, `BSZ` -/
  latch : Latches
  /-- `W`, `RC`, `KRND`, `RK`, `RKN` -/
  sched : ScheduleRegs
  /-- `S`, `RND`, `PH` -/
  core : CoreRegs
  /-- ONESHOT: `OI`, `OJ`, `OST` -/
  one : OneshotRegs
  /-- ENGINE: `IBUF`, `ICNT`, `OBUF`, `OCNT`, `FB`, `EST` -/
  eng : EngineRegs
  /-- PAD: `PBUF`, `PCNT`, `POUT`, `PLAST`, `PST` -/
  pad : PadRegs
  /-- UNPAD: `UBUF`, `UCNT`, `UOUT`, `ULIM`, `UPEND`, `UHAVE`, `ULAST`, `UST` -/
  unp : UnpadRegs
  /-- the host; the model's own field (log 6) -/
  env : Env
  /-- clock edges since reset; the model's own field, read only to draw free values (log 5) -/
  edges : Nat
  deriving DecidableEq, Repr

/-- Why the machine can stop with a fault. Neither is reached by a run from reset (log 10). -/
inductive Fault
  /-- Raised by a command's meaning while TOP = RUN when a worker would use a counter outside the bound stated with
  its register, which R157(c) says it never passes. Safe: the spec gives such a state no step. -/
  | counterOutOfBound
  /-- Raised by `step` when TOP = RUN and `CMDR` holds no legal command, which R22 says is never latched. Safe: the
  spec gives such a state no step. -/
  | illegalLatch
  deriving DecidableEq, Repr

/-- Why the machine can refuse. -/
inductive Refusal
  /-- Raised by an arm of `exec` for an instruction without a meaning. Safe. No arm raises it. -/
  | notModelled (mnemonic : String)
  /-- Raised by `step` when the host offers a reserved command word to the idle core (R109, U1). Safe: the spec gives
  it no meaning and says that a model refuses it. -/
  | reservedCommand
  /-- Raised by the meaning of a command that uses PAD or UNPAD when `blksz` = 0 at its acceptance: the command is then
  reserved (R109, R267, U2). Safe, as `reservedCommand`. -/
  | zeroBlockSize
  deriving DecidableEq, Repr

/-- A job with zero on every wire and no input stream. -/
def Job.blank : Job :=
  { cmd := 0, key := 0, iv := 0, blk := 0, blksz := 0, feed := [], keepStale := false }

/-- A host that offers nothing, has taken nothing and would take all it is offered. -/
def Env.quiet : Env :=
  { cmdValid := false, job := Job.blank, jobs := [], input := [], taken := [], moves := [], rest := Move.eager }

/-- The state right after reset (R40): `TOP`, the control states and `RKN` as the table says; every other register,
which the table leaves without a value, at zero (DESIGN CHOICE, log 3), `PH` at `PH_ARK0`; a quiet host (log 6). -/
def State.reset : State :=
  { top := .idle,
    latch := { cmdr := 0, key := zeroBlock, ivr := zeroBlock, blk := zeroBlock, bsz := 0 },
    sched := { w := Vector.replicate 4 0, rc := 0, krnd := 0, rk := Vector.replicate 11 zeroBlock, rkn := 0 },
    core := { sreg := zeroBlock, rnd := 0, ph := .ark0 },
    one := { oi := 0, oj := 0, ost := .idle },
    eng := { ibuf := zeroBlock, icnt := 0, obuf := zeroBlock, ocnt := 0, fb := zeroBlock, est := .idle },
    pad := { pbuf := Vector.replicate 255 0, pcnt := 0, pout := 0, plast := false, pst := .idle },
    unp := { ubuf := Vector.replicate 255 0, ucnt := 0, uout := 0, ulim := 0, upend := 0, uhave := false, ulast := false,
             ust := .idle },
    env := Env.quiet,
    edges := 0 }

end Sys2Proof.Machine
end

