-- ==== Sys2Proof/Machine/Galois.lean ====
section
/-! DEFINITION. Arithmetic in GF(2^8) (40_round_primitives.md R142 to R144). Addition is `^^^`. -/

namespace Sys2Proof.Machine

/-- Doubling (R143): shift left within 8 bits, and exclusive-or 0x1B if the bit shifted out was 1. -/
def xtime (a : Byte) : Byte := (a <<< 1) ^^^ (if a.msb then Config.polyLow else 0)

/-- `n` rounds of the multiplication of R144, on the accumulator `p` and the operands `a`, `b`. -/
def gmulLoop : Nat → Byte → Byte → Byte → Byte
  | 0, p, _, _ => p
  | n + 1, p, a, b => gmulLoop n (if b.getLsbD 0 then p ^^^ a else p) (xtime a) (b >>> 1)

/-- Multiplication (R144): shift and add, eight times. -/
def gmul (a b : Byte) : Byte := gmulLoop 8 0 a b

end Sys2Proof.Machine
end

