-- ==== Sys2Proof/Machine/Primitives.lean ====
section
/-! DEFINITION. The round primitives as functions on a block (40_round_primitives.md R148 to R154), and the control word
the sequencer selects one with (30_encoding.md R114). Byte `r + 4 * c` is row `r`, column `c` (R65). -/

namespace Sys2Proof.Machine

/-- `X ^ Y` on blocks, byte by byte (R234). -/
def xorBlock (x y : Block) : Block := Vector.ofFn fun i => x[i] ^^^ y[i]

/-- SubBytes (R148). -/
def subBytes (x : Block) : Block := x.map sbox

/-- InvSubBytes (R149). -/
def invSubBytes (x : Block) : Block := x.map invSbox

/-- ShiftRows (R150): the element of row `r` in column `c + r` arrives in column `c`. -/
def shiftRows (x : Block) : Block :=
  Vector.ofFn fun i : Fin 16 => x[i.val % 4 + 4 * ((i.val / 4 + i.val % 4) % 4)]

/-- InvShiftRows (R151): the element of row `r` in column `c - r` arrives in column `c`. -/
def invShiftRows (x : Block) : Block :=
  Vector.ofFn fun i : Fin 16 => x[i.val % 4 + 4 * ((i.val / 4 + 4 - i.val % 4) % 4)]

/-- Row `r` of a column multiplied by the matrix whose first row is `m0 m1 m2 m3` and each following row the row above
rotated right (R152, R153; log 14): the sum over `k` of `m[(k - r) mod 4] * a[k]`. -/
def mixByte (m0 m1 m2 m3 : Byte) (r : Nat) (a0 a1 a2 a3 : Byte) : Byte :=
  match r with
  | 0 => gmul m0 a0 ^^^ gmul m1 a1 ^^^ gmul m2 a2 ^^^ gmul m3 a3
  | 1 => gmul m3 a0 ^^^ gmul m0 a1 ^^^ gmul m1 a2 ^^^ gmul m2 a3
  | 2 => gmul m2 a0 ^^^ gmul m3 a1 ^^^ gmul m0 a2 ^^^ gmul m1 a3
  | _ => gmul m1 a0 ^^^ gmul m2 a1 ^^^ gmul m3 a2 ^^^ gmul m0 a3

/-- Every column multiplied by the matrix of `mixByte`; all four outputs of a column come from its four inputs. -/
def mixWith (m0 m1 m2 m3 : Byte) (x : Block) : Block :=
  Vector.ofFn fun i : Fin 16 =>
    let c := 4 * (i.val / 4)
    mixByte m0 m1 m2 m3 (i.val % 4) x[c] x[c + 1] x[c + 2] x[c + 3]

/-- MixColumns (R152): first row `2 3 1 1`. -/
def mixColumns (x : Block) : Block := mixWith 2 3 1 1 x

/-- InvMixColumns (R153): first row `14 11 13 9`. -/
def invMixColumns (x : Block) : Block := mixWith 14 11 13 9 x

/-- AddRoundKey (R154). -/
def addRoundKey (x k : Block) : Block := xorBlock x k

/-- The seven primitives (R140). -/
inductive Primitive
  | subBytes
  | shiftRows
  | mixColumns
  | addRoundKey
  | invSubBytes
  | invShiftRows
  | invMixColumns
  deriving DecidableEq, Repr

/-- The 3-bit control word `{DIR, OP[1:0]}` (R114). -/
def primitiveWord : Primitive → BitVec 3
  | .subBytes => 0b000
  | .shiftRows => 0b001
  | .mixColumns => 0b010
  | .addRoundKey => 0b011
  | .invSubBytes => 0b100
  | .invShiftRows => 0b101
  | .invMixColumns => 0b110

/-- A primitive applied to a state `x`; only AddRoundKey reads the key operand `k`. -/
def applyPrimitive (p : Primitive) (x k : Block) : Block :=
  match p with
  | .subBytes => subBytes x
  | .shiftRows => shiftRows x
  | .mixColumns => mixColumns x
  | .addRoundKey => addRoundKey x k
  | .invSubBytes => invSubBytes x
  | .invShiftRows => invShiftRows x
  | .invMixColumns => invMixColumns x

end Sys2Proof.Machine
end

