-- ==== Sys2Proof/Machine/Operands.lean ====
section
/-! DEFINITION. Where a command's operands come from: the input wires (30_encoding.md R105, R116), the byte order of a
128-bit port and of a schedule word (20_memory.md R64, R66), and what each command uses (R106, R107; 45_stream_pipeline.md
R292). -/

namespace Sys2Proof.Machine

/-- Byte `i` of a 128-bit port is bits `[127-8i : 120-8i]` (R64, R116). -/
def blockOfPort (p : BitVec 128) : Block := Vector.ofFn fun i : Fin 16 => p.extractLsb' (120 - 8 * i.val) 8

/-- The port value that presents a block: byte 0 most significant (R64). -/
def portOfBlock (x : Block) : BitVec 128 := x.foldl (fun acc b => (acc <<< 8) ||| b.zeroExtend 128) 0

/-- Word `j` of a block, first byte most significant (R66). -/
def wordOfBlock (x : Block) (j : Fin 4) : Word :=
  x[4 * j.val] ++ x[4 * j.val + 1] ++ x[4 * j.val + 2] ++ x[4 * j.val + 3]

/-- The block whose word `j` is `w[j]` (R66): byte `4j + m` is byte `m` of word `j`, 0 most significant. -/
def blockOfWords (w : Vector Word 4) : Block :=
  Vector.ofFn fun i : Fin 16 => w[i.val / 4].extractLsb' (24 - 8 * (i.val % 4)) 8

/-- Element `i` of a buffer. The workers only form indices inside the buffer (R157; log 10). -/
def readAt {n : Nat} (v : Vector Byte n) (i : Nat) : Byte := if h : i < n then v[i] else 0

/-- A buffer with element `i` replaced. The workers only form indices inside the buffer (R157; log 10). -/
def writeAt {n : Nat} (v : Vector Byte n) (i : Nat) (b : Byte) : Vector Byte n := v.setIfInBounds i b

/-- `RK[i]`, for `i` in 0..10 (R62); no other index is formed. -/
def roundKeyAt (rk : RoundKeys) (i : Nat) : Block := if h : i < 11 then rk[i] else zeroBlock

/-- The input wires of the core (R105). `clk` is not one of them: a step is a rising edge of it (R301). -/
structure InPorts where
  rst : Bool
  abort : Bool
  cmdValid : Bool
  cmd : BitVec 8
  key : BitVec 128
  iv : BitVec 128
  blk : BitVec 128
  blksz : BitVec 8
  inValid : Bool
  inData : BitVec 8
  inTermValid : Bool
  inTermErr : Bool
  outReady : Bool
  outTermReady : Bool
  deriving DecidableEq, Repr

/-- The move at the coming edge (log 6). Beyond the listed moves every enabled core step is taken: the weak fairness of
R305. -/
def currentMove (s : State) : Move := s.env.moves.headD { s.env.rest with go := true }

/-- The host's next offer on `CH_IN`, if it makes one at the coming edge. -/
def currentOffer (s : State) : Option Offer := if (currentMove s).offerIn then s.env.input.head? else none

/-- What stands on the input wires at the coming edge (R105). The data wires of a channel on which nothing is offered
stand at 0; no rule reads them (log 17). -/
def inPorts (s : State) : InPorts :=
  let m := currentMove s
  let j := s.env.job
  { rst := m.rst, abort := m.abort,
    cmdValid := s.env.cmdValid && m.offerCmd,
    cmd := j.cmd, key := j.key, iv := j.iv, blk := j.blk, blksz := j.blksz,
    inValid := match currentOffer s with
      | some (.byte _) | some (.both _ _) => true
      | some (.term _) | none => false,
    inData := match currentOffer s with
      | some (.byte b) | some (.both b _) => b
      | some (.term _) | none => 0,
    inTermValid := match currentOffer s with
      | some (.term _) | some (.both _ _) => true
      | some (.byte _) | none => false,
    inTermErr := match currentOffer s with
      | some (.term f) | some (.both _ f) => f
      | some (.byte _) | none => false,
    outReady := m.outReady, outTermReady := m.outTermReady }

/-- The key size a command selects (R107); the commands without the field select 0. -/
def keySizeOf : Instr → KeySize
  | .subBytes | .invSubBytes | .shiftRows | .invShiftRows | .mixColumns | .invMixColumns | .addRoundKey => .k128
  | .pad | .unpad => .k128
  | .keySched k | .blockEnc k | .blockDec k | .ecbEnc k | .ecbDec k | .cbcEnc k | .cbcDec k => k
  | .ecbEncPad k | .ecbDecUnpad k | .cbcEncPad k | .cbcDecUnpad k => k

/-- The commands with `OP` in KEYSCHED, BLOCK, ECB, CBC, at whose acceptance the key is expanded (R108). -/
def usesSchedule : Instr → Bool
  | .subBytes | .invSubBytes | .shiftRows | .invShiftRows | .mixColumns | .invMixColumns | .addRoundKey => false
  | .pad | .unpad => false
  | .keySched _ | .blockEnc _ | .blockDec _ | .ecbEnc _ | .ecbDec _ | .cbcEnc _ | .cbcDec _ => true
  | .ecbEncPad _ | .ecbDecUnpad _ | .cbcEncPad _ | .cbcDecUnpad _ => true

/-- The commands with `OP` = CBC, at whose acceptance `FB` takes the initial value (R108). -/
def usesFeedback : Instr → Bool
  | .subBytes | .invSubBytes | .shiftRows | .invShiftRows | .mixColumns | .invMixColumns | .addRoundKey => false
  | .pad | .unpad | .keySched _ | .blockEnc _ | .blockDec _ => false
  | .ecbEnc _ | .ecbDec _ | .ecbEncPad _ | .ecbDecUnpad _ => false
  | .cbcEnc _ | .cbcDec _ | .cbcEncPad _ | .cbcDecUnpad _ => true

/-- The workers a command uses, upstream to downstream (R292). -/
def workersOf : Instr → List Worker
  | .subBytes | .invSubBytes | .shiftRows | .invShiftRows | .mixColumns | .invMixColumns | .addRoundKey => [.oneshot]
  | .keySched _ | .blockEnc _ | .blockDec _ => [.oneshot]
  | .ecbEnc _ | .ecbDec _ | .cbcEnc _ | .cbcDec _ => [.engine]
  | .ecbEncPad _ | .cbcEncPad _ => [.pad, .engine]
  | .ecbDecUnpad _ | .cbcDecUnpad _ => [.engine, .unpad]
  | .pad => [.pad]
  | .unpad => [.unpad]

/-- The operand condition on legality (R109): `blksz` is not 0 when the command uses PAD or UNPAD. -/
def blockSizeOk (i : Instr) (blksz : BitVec 8) : Bool :=
  !((workersOf i).contains .pad || (workersOf i).contains .unpad) || blksz != 0

end Sys2Proof.Machine
end

