-- ==== Sys2Proof/Machine/Expander.lean ====
section
/-! DEFINITION. The key schedule expander (41_key_schedule.md R181 to R186), run inside command acceptance. -/

namespace Sys2Proof.Machine

/-- RotWord (R181): rotate left by one byte. -/
def rotWord (w : Word) : Word := (w <<< 8) ||| (w >>> 24)

/-- SubWord (R182): `SBOX` on each byte. -/
def subWord (w : Word) : Word :=
  sbox (w.extractLsb' 24 8) ++ sbox (w.extractLsb' 16 8) ++ sbox (w.extractLsb' 8 8) ++ sbox (w.extractLsb' 0 8)

/-- The round constant in the most significant byte: `rc << 24` (R183). -/
def rcWord (rc : Byte) : Word := rc.zeroExtend 32 <<< 24

/-- The four words of a round key from those of the one before and its constant (R184). -/
def nextWords (w : Vector Word 4) (rc : Byte) : Vector Word 4 :=
  let w0 := w[0] ^^^ (subWord (rotWord w[3]) ^^^ rcWord rc)
  let w1 := w[1] ^^^ w0
  let w2 := w[2] ^^^ w1
  let w3 := w[3] ^^^ w2
  #v[w0, w1, w2, w3]

/-- One pass of the loop of R185: round key number `KRND` is made and stored, then `KRND` counts it. -/
def expandRound (r : ScheduleRegs) : ScheduleRegs :=
  let w' := nextWords r.w r.rc
  { r with w := w', rk := r.rk.setIfInBounds r.krnd.toNat (blockOfWords w'), rc := xtime r.rc, krnd := r.krnd + 1 }

/-- The expander before its loop (R185): round key 0 is the key, one round key is made. -/
def expandStart (key : Block) (r : ScheduleRegs) : ScheduleRegs :=
  { r with w := Vector.ofFn fun j => wordOfBlock key j, rk := r.rk.set 0 key, rc := Config.rcInit, krnd := 1 }

/-- `KeyExpand(KEY, KSZ)` (R185, R186): for `KSZ` = 0 the whole schedule, otherwise the empty one, `RKN` = 0 and nothing
else written. After the loop `KRND` is 11, the number of round keys made (R26; log 4). -/
def keyExpand (k : KeySize) (key : Block) (r : ScheduleRegs) : ScheduleRegs :=
  match k with
  | .k128 => { Nat.repeat expandRound Config.nr (expandStart key r) with rkn := 11 }
  | .k192 | .k256 | .k3 => { r with rkn := 0 }

end Sys2Proof.Machine
end

