-- ==== Sys2Proof/Machine/Flags.lean ====
section
/-! DEFINITION. Status. The core has no condition codes and no arithmetic flags (10_state.md R36); what stands in their
place is the terminal code (30_encoding.md R112) and the classification of an item on the two channels of a pair. -/

namespace Sys2Proof.Machine

/-- The code of an error (R112). -/
def errCode : Err → BitVec 3
  | .lce => 1
  | .ise => 2
  | .te => 3
  | .pae => 4

/-- `code(t)` on `out_term_code` (R112): 0 for `End`. Codes 5 to 7 are never produced. -/
def terminalCode : Terminal → BitVec 3
  | .eos => 0
  | .fail e => errCode e

/-- The terminal received when the host ends the input with `in_term_err` (R113). -/
def inputTerminal (failed : Bool) : Terminal := if failed then .fail .te else .eos

/-- The offer stands on the data channel: its `valid` is `out_valid` (R110). -/
def isData : Option Item → Bool
  | some (.data _) => true
  | some (.term _) | none => false

/-- The offer stands on the error channel: its `valid` is `out_term_valid` (R110). -/
def isTerminal : Option Item → Bool
  | some (.term _) => true
  | some (.data _) | none => false

/-- The output wires of the core (R105). -/
structure OutPorts where
  busy : Bool
  cmdReady : Bool
  inReady : Bool
  inTermReady : Bool
  outValid : Bool
  outData : BitVec 8
  outTermValid : Bool
  outTermCode : BitVec 3

/-- The output wires from the top control, from whether the first worker exists and is in `FILL`, and from what the last
worker offers (R110); `edges` numbers the draws of the two wires that can be without a value (log 5). -/
def statusPorts (top : Top) (filling : Bool) (offer : Option Item) (edges : Nat) : OutPorts :=
  let run := decide (top = .run)
  { busy := run,
    cmdReady := decide (top = .idle),
    inReady := run && filling,
    inTermReady := run && filling,
    outValid := run && isData offer,
    outData := match top, offer with
      | .run, some (.data b) => b
      | .run, some (.term _) | .run, none | .idle, _ => Config.undrivenOutData edges,
    outTermValid := run && isTerminal offer,
    outTermCode := match top, offer with
      | .run, some (.term t) => terminalCode t
      | .run, some (.data _) | .run, none | .idle, _ => Config.undrivenOutTermCode edges }

end Sys2Proof.Machine
end

