-- ==== Sys2Proof/Machine/Ops.lean ====
section
/-! DEFINITION. The shared operations: raising an error (60_exceptions.md R344), the transfers on the host's two channel
pairs (45_stream_pipeline.md R295 to R297), reset (70_reset_and_hazards.md R390), abort (60_exceptions.md R356),
acceptance (30_encoding.md R108), and one clock edge of a running command (R300, R301). -/

namespace Sys2Proof.Machine

/-! ### Errors and terminals -/

/-- The worker moves to `TERM(t)`, from where it offers the terminal (R297). It writes nothing else. -/
def toTerminal (w : Worker) (t : Terminal) (s : State) : State :=
  match w with
  | .oneshot => { s with one.ost := .term t }
  | .pad => { s with pad.pst := .term t }
  | .engine => { s with eng.est := .term t }
  | .unpad => { s with unp.ust := .term t }

/-- `raise E` (R344, R351), the one way any error is taken: the worker moves to `TERM(Fail(E))`. It writes nothing else:
nothing is saved, no mode changes, no other worker is touched. There is no return from it (R353): when the host has taken
the terminal (`hostTook`) the core is idle. -/
def raise (w : Worker) (e : Err) (s : State) : State := toTerminal w (.fail e) s

/-! ### The host's side of a transfer -/

/-- The host's offers after the first of them was taken as `x`: a byte that loses the race of R303 is never taken, a
terminal that loses it is still offered (log 7). -/
def offersAfter (x : Item) (offers : List Offer) : List Offer :=
  match offers with
  | [] => []
  | .byte _ :: rest | .term _ :: rest => rest
  | .both _ f :: rest =>
    match x with
    | .data _ => .term f :: rest
    | .term _ => rest

/-- The host's part in a transfer on `CH_IN`. -/
def hostSent (x : Item) (s : State) : State := { s with env := { s.env with input := offersAfter x s.env.input } }

/-- The host's part in a transfer on `CH_OUT`. Taking the terminal completes the command: `TOP <- IDLE` (R297, R309,
R352). -/
def hostTook (x : Item) (s : State) : State :=
  let s' := { s with env := { s.env with taken := s.env.taken ++ [x] } }
  match x with
  | .data _ => s'
  | .term _ => { s' with top := .idle }

/-- The host's part in acceptance: the next job comes on the wires, and the accepted job's stream is offered from now on,
behind what is still offered from before if the host does not withdraw it (R303, R304; log 8). -/
def hostAccepted (s : State) : State :=
  let input := (if s.env.job.keepStale then s.env.input else []) ++ s.env.job.feed
  match s.env.jobs with
  | [] => { s with env := { s.env with cmdValid := false, input := input } }
  | j :: rest => { s with env := { s.env with job := j, jobs := rest, input := input } }

/-- What the first worker receives at this edge if it is receiving (R296): the byte, `End` or `Fail(TE)`; of a byte and
a terminal offered together, the one that wins the race (R303; log 7). -/
def arrivingItem (s : State) : Option Item :=
  let p := inPorts s
  match p.inValid, p.inTermValid with
  | false, false => none
  | true, false => some (.data p.inData)
  | false, true => some (.term (inputTerminal p.inTermErr))
  | true, true =>
    if (currentMove s).raceTerm then some (.term (inputTerminal p.inTermErr)) else some (.data p.inData)

/-! ### Reset and abort -/

/-- Every worker control state at its IDLE value. -/
def idleWorkers (s : State) : State := { s with one.ost := .idle, pad.pst := .idle, eng.est := .idle, unp.ust := .idle }

/-- An edge with `rst` = 1 (R390): `TOP`, the control states and `RKN`; every other register is left as it is. -/
def resetEdge (s : State) : State := { idleWorkers s with top := .idle, sched.rkn := 0 }

/-- An edge with `abort` = 1 and `rst` = 0 (R356, R357): with `TOP` = RUN the control states and `TOP`; with `TOP` = IDLE
nothing. No terminal is delivered and no transfer happens. -/
def abortEdge (s : State) : State :=
  match s.top with
  | .idle => s
  | .run => { idleWorkers s with top := .idle }

/-! ### Acceptance -/

/-- The latches at acceptance (R108, R116): `CMDR` takes the command word, `encode i` (log 12). -/
def latchOperands (i : Instr) (s : State) : State :=
  let p := inPorts s
  { s with latch := { cmdr := encode i, key := blockOfPort p.key, ivr := blockOfPort p.iv, blk := blockOfPort p.blk,
                      bsz := p.blksz } }

/-- The starting control state and counters of a worker the command uses (R108). -/
def startWorker (i : Instr) (s : State) (w : Worker) : State :=
  match w with
  | .oneshot => { s with one.ost := .compute }
  | .pad => { s with pad.pst := .fill, pad.pcnt := 0, pad.plast := false }
  | .engine => { s with eng.est := .fill, eng.icnt := 0, eng.fb := if usesFeedback i then s.latch.ivr else s.eng.fb }
  | .unpad => { s with unp.ust := .fill, unp.ucnt := 0, unp.uhave := false, unp.ulast := false }

/-- The round-key store at acceptance (R108): expanded for the commands that use a schedule, empty for the others. -/
def scheduleAtAcceptance (i : Instr) (s : State) : State :=
  if usesSchedule i then { s with sched := keyExpand (keySizeOf i) s.latch.key s.sched }
  else { s with sched.rkn := 0 }

/-- Acceptance (R108), one atomic step. -/
def acceptCommand (i : Instr) (s : State) : State :=
  let s1 := scheduleAtAcceptance i (latchOperands i s)
  let s2 := (workersOf i).foldl (startWorker i) (idleWorkers s1)
  hostAccepted { s2 with top := .run }

/-! ### One clock edge of a running command -/

/-- The workers of one command wired together (R292): what its first worker does with an item, what its last worker
offers, the internal step or internal transfer of R300. -/
structure Pipeline where
  /-- the first worker exists and is in its `FILL` state -/
  filling : State → Bool
  /-- the first worker receives an item -/
  receive : Item → State → State
  /-- what the last worker offers on `CH_OUT` -/
  offer : State → Option Item
  /-- the last worker's "on transfer" actions -/
  sent : State → State
  /-- the enabled internal step or internal transfer, if there is one, and the state after it -/
  inner : State → Option State
  /-- every counter a worker may index a buffer with is within its bound (R157(c); log 10) -/
  inBounds : State → Bool

/-- The item transferred on `CH_IN` at this edge: the host's `valid` meets the first worker's `ready` (R111, R296). -/
def Pipeline.inputAt (p : Pipeline) (s : State) : Option Item := if p.filling s then arrivingItem s else none

/-- The item transferred on `CH_OUT` at this edge: the last worker's `valid` meets the host's `ready` (R295, R297). -/
def Pipeline.outputAt (p : Pipeline) (s : State) : Option Item :=
  match p.offer s with
  | none => none
  | some (.data b) => if (inPorts s).outReady then some (.data b) else none
  | some (.term t) => if (inPorts s).outTermReady then some (.term t) else none

/-- The internal step or internal transfer taken at this edge, if one is enabled and falls on it (R305). -/
def Pipeline.innerAt (p : Pipeline) (s : State) : Option State := if (currentMove s).go then p.inner s else none

/-- One clock edge with `TOP` = RUN, `rst` = 0, `abort` = 0 (R300, R301): every step of R300 that is enabled before the
edge and falls on it. Each worker takes part in at most one of them, so they touch disjoint registers (R300; log 1). -/
def Pipeline.edge (p : Pipeline) (s : State) : State :=
  let s1 := match p.innerAt s with
    | some t => t
    | none => s
  let s2 := match p.inputAt s with
    | some x => hostSent x (p.receive x s1)
    | none => s1
  match p.outputAt s with
  | some x => hostTook x (p.sent s2)
  | none => s2

/-- The shape of every command's meaning: while the core is idle, the command's acceptance, refused if `blksz` makes it
reserved (R109; log 9); while it runs, one clock edge of its workers. -/
def runCommand (i : Instr) (p : Pipeline) (s : State) : Host.Outcome State Fault Refusal :=
  match s.top with
  | .idle => if blockSizeOk i (inPorts s).blksz then .next (acceptCommand i s) else .refused .zeroBlockSize
  | .run => if p.inBounds s then .next (p.edge s) else .fault .counterOutOfBound

end Sys2Proof.Machine
end

