-- ==== Sys2Proof/Machine/Sequencer.lean ====
section
/-! DEFINITION. The block cipher core and its round sequencer (42_block_core.md R200 to R210). -/

namespace Sys2Proof.Machine

/-- The source's direction (R103). -/
inductive Direction
  /-- forward: encrypt -/
  | fwd
  /-- inverse: decrypt -/
  | inv
  deriving DecidableEq, Repr

/-- One line of the tables of R204 and R205: the primitive, the index of the round key if it is AddRoundKey, and the new
`(RND, PH)`. -/
structure SeqLine where
  prim : Primitive
  keyIndex : Nat
  rnd : BitVec 4
  ph : Phase
  deriving DecidableEq, Repr

/-- The line of the forward table (R204). -/
def forwardLine (rnd : BitVec 4) : Phase → Option SeqLine
  | .ark0 => some ⟨.addRoundKey, 0, 1, .sub⟩
  | .sub => some ⟨.subBytes, 0, rnd, .shift⟩
  | .shift => some ⟨.shiftRows, 0, rnd, if rnd < 10 then .mix else .ark⟩
  | .mix => some ⟨.mixColumns, 0, rnd, .ark⟩
  | .ark => some (if rnd < 10 then ⟨.addRoundKey, rnd.toNat, rnd + 1, .sub⟩ else ⟨.addRoundKey, rnd.toNat, rnd, .done⟩)
  | .done => none

/-- The line of the inverse table (R205; 90_conflicts.md C3: the first key is `RK[10]`). -/
def inverseLine (rnd : BitVec 4) : Phase → Option SeqLine
  | .ark0 => some ⟨.addRoundKey, 10, 1, .shift⟩
  | .shift => some ⟨.invShiftRows, 0, rnd, .sub⟩
  | .sub => some ⟨.invSubBytes, 0, rnd, .ark⟩
  | .ark => some ⟨.addRoundKey, 10 - rnd.toNat, rnd, if rnd < 10 then .mix else .done⟩
  | .mix => some ⟨.invMixColumns, 0, rnd + 1, .shift⟩
  | .done => none

/-- The line of the table for the direction. -/
def seqLine (d : Direction) (rnd : BitVec 4) (ph : Phase) : Option SeqLine :=
  match d with
  | .fwd => forwardLine rnd ph
  | .inv => inverseLine rnd ph

/-- One step of the sequencer; in `PH_DONE` there is none. -/
def seqStep (d : Direction) (rk : RoundKeys) (q : CoreRegs) : CoreRegs :=
  match seqLine d q.rnd q.ph with
  | some l => ⟨applyPrimitive l.prim q.sreg (roundKeyAt rk l.keyIndex), l.rnd, l.ph⟩
  | none => q

/-- The load (R201): `S <- X; RND <- 0; PH <- PH_ARK0`. -/
def seqLoad (x : Block) : CoreRegs := ⟨x, 0, .ark0⟩

/-- The 40 primitives of a block (R204, R205), taken as one step (R210; log 2). -/
def seqRun (d : Direction) (rk : RoundKeys) (x : Block) : CoreRegs := Nat.repeat (seqStep d rk) 40 (seqLoad x)

/-- One of the rounds 1 to 9 of `Encrypt` (R204). -/
def encryptRound (rk : RoundKeys) (s : Block) (i : Nat) : Block :=
  addRoundKey (mixColumns (shiftRows (subBytes s))) (roundKeyAt rk i)

/-- `Encrypt(X)` as a function (R204). -/
def encrypt (rk : RoundKeys) (x : Block) : Block :=
  let s := [1, 2, 3, 4, 5, 6, 7, 8, 9].foldl (encryptRound rk) (addRoundKey x (roundKeyAt rk 0))
  addRoundKey (shiftRows (subBytes s)) (roundKeyAt rk 10)

/-- One of the applications 1 to 9 of `Decrypt` (R205). -/
def decryptRound (rk : RoundKeys) (s : Block) (j : Nat) : Block :=
  invMixColumns (addRoundKey (invSubBytes (invShiftRows s)) (roundKeyAt rk (10 - j)))

/-- `Decrypt(X)` as a function (R205). -/
def decrypt (rk : RoundKeys) (x : Block) : Block :=
  let s := [1, 2, 3, 4, 5, 6, 7, 8, 9].foldl (decryptRound rk) (addRoundKey x (roundKeyAt rk 10))
  addRoundKey (invSubBytes (invShiftRows s)) (roundKeyAt rk 0)

/-- `BlockCore(DIR, X)` (R200, R203): with an empty schedule `Err(ISE)`, and neither `S` nor the sequencer state is
touched; otherwise the block and the state the sequencer leaves. -/
def blockCore (d : Direction) (x : Block) (s : State) : Except Err (Block × State) :=
  if s.sched.rkn = 11 then
    let q := seqRun d s.sched.rk x
    .ok (q.sreg, { s with core := q })
  else .error .ise

end Sys2Proof.Machine
end

