-- ==== Sys2Proof/Machine/Oneshot.lean ====
section
/-! DEFINITION. The ONESHOT worker (40_round_primitives.md R141, 41_key_schedule.md R187, 42_block_core.md R206). -/

namespace Sys2Proof.Machine

/-- `O_COMPUTE` of a primitive command (R141): `S` takes the result. -/
def computePrimitive (result : Block) (s : State) : State := { s with core.sreg := result, one.oj := 0, one.ost := .emit }

/-- `O_COMPUTE` of KEYSCHED (R187): an empty schedule delivers nothing. -/
def computeKeySched (s : State) : State :=
  let s' := { s with one.oi := 0, one.oj := 0 }
  if s'.sched.rkn = 0 then toTerminal .oneshot .eos s' else { s' with one.ost := .emit }

/-- `O_COMPUTE` of a BLOCK command (R206). -/
def computeBlock (d : Direction) (s : State) : State :=
  match blockCore d s.latch.blk s with
  | .error e => raise .oneshot e s
  | .ok (_, s') => { s' with one.oj := 0, one.ost := .emit }

/-- What ONESHOT offers when its result is the block `S` (R141, R206). -/
def blockOffer (s : State) : Option Item :=
  match s.one.ost with
  | .emit => some (.data (readAt s.core.sreg s.one.oj.toNat))
  | .term t => some (.term t)
  | .idle | .compute | .done => none

/-- The "on transfer" actions of a block result (R141, R206). -/
def blockSent (s : State) : State :=
  match s.one.ost with
  | .emit =>
    let s' := { s with one.oj := s.one.oj + 1 }
    if s'.one.oj = 16 then toTerminal .oneshot .eos s' else s'
  | .term _ => { s with one.ost := .done }
  | .idle | .compute | .done => s

/-- What ONESHOT offers when its result is the round-key store (R187). -/
def keysOffer (s : State) : Option Item :=
  match s.one.ost with
  | .emit => some (.data (readAt (roundKeyAt s.sched.rk s.one.oi.toNat) s.one.oj.toNat))
  | .term t => some (.term t)
  | .idle | .compute | .done => none

/-- The "on transfer" actions of KEYSCHED (R187). -/
def keysSent (s : State) : State :=
  match s.one.ost with
  | .emit =>
    let s1 := { s with one.oj := s.one.oj + 1 }
    let s2 := if s1.one.oj = 16 then { s1 with one.oj := 0, one.oi := s1.one.oi + 1 } else s1
    if s2.one.oi = s2.sched.rkn then toTerminal .oneshot .eos s2 else s2
  | .term _ => { s with one.ost := .done }
  | .idle | .compute | .done => s

/-- ONESHOT alone, between nothing and `CH_OUT` (R292), with a block result. -/
def blockPipeline (compute : State → State) : Pipeline :=
  { filling := fun _ => false,
    receive := fun _ s => s,
    offer := blockOffer,
    sent := blockSent,
    inner := fun s => if s.one.ost = .compute then some (compute s) else none,
    inBounds := fun s => s.one.ost != .emit || decide (s.one.oj < 16) }

/-- ONESHOT alone, reading out the round-key store (R187). -/
def keysPipeline : Pipeline :=
  { filling := fun _ => false,
    receive := fun _ s => s,
    offer := keysOffer,
    sent := keysSent,
    inner := fun s => if s.one.ost = .compute then some (computeKeySched s) else none,
    inBounds := fun s => s.one.ost != .emit || (decide (s.one.oj < 16) && decide (s.one.oi < 11)) }

end Sys2Proof.Machine
end

