-- ==== Sys2Proof/Machine/BlockCommands.lean ====
section
/-! DEFINITION. The meanings of KEYSCHED (41_key_schedule.md R187) and of the two BLOCK commands (42_block_core.md R206 to
R208). -/

namespace Sys2Proof.Machine

/-- KEYSCHED (R187): the schedule was made at acceptance; ONESHOT reads it out. -/
def execKeySched (k : KeySize) (s : State) : Host.Outcome State Fault Refusal := runCommand (.keySched k) keysPipeline s

/-- The workers of BLOCK.ENC. -/
def blockEncPipeline : Pipeline := blockPipeline (computeBlock .fwd)

/-- BLOCK.ENC (R207). -/
def execBlockEnc (k : KeySize) (s : State) : Host.Outcome State Fault Refusal := runCommand (.blockEnc k) blockEncPipeline s

/-- The workers of BLOCK.DEC. -/
def blockDecPipeline : Pipeline := blockPipeline (computeBlock .inv)

/-- BLOCK.DEC (R208). -/
def execBlockDec (k : KeySize) (s : State) : Host.Outcome State Fault Refusal := runCommand (.blockDec k) blockDecPipeline s

end Sys2Proof.Machine
end

