-- ==== Sys2Proof/Machine/Engine.lean ====
section
/-! DEFINITION. The ENGINE worker and its four block steps (43_chaining.md R230 to R236, R241). -/

namespace Sys2Proof.Machine

/-- ENGINE in `E_FILL` receives an item (R233, R236, R241). -/
def engineReceive (x : Item) (s : State) : State :=
  match x with
  | .data b =>
    let s' := { s with eng.ibuf := writeAt s.eng.ibuf s.eng.icnt.toNat b, eng.icnt := s.eng.icnt + 1 }
    if s'.eng.icnt = 16 then { s' with eng.est := .xform } else s'
  | .term .eos => if s.eng.icnt = 0 then toTerminal .engine .eos s else raise .engine .lce s
  | .term (.fail e) => raise .engine e s

/-- A block step (R234): the output block and the state after it, or the error of the block core. -/
abbrev BlockStep := State → Except Err (Block × State)

/-- ECB (R234): `Y <- Encrypt(X)` or `Y <- Decrypt(X)`, with `X` = `IBUF`. `FB` is neither read nor written. -/
def ecbStep (d : Direction) : BlockStep := fun s => blockCore d s.eng.ibuf s

/-- CBC encrypt (R234): `Y <- Encrypt(X ^ FB); FB <- Y`. -/
def cbcEncStep : BlockStep := fun s =>
  match blockCore .fwd (xorBlock s.eng.ibuf s.eng.fb) s with
  | .error e => .error e
  | .ok (y, s') => .ok (y, { s' with eng.fb := y })

/-- CBC decrypt (R234): `Y <- Decrypt(X) ^ FB; FB <- X`, with the old `FB` in the exclusive or. -/
def cbcDecStep : BlockStep := fun s =>
  match blockCore .inv s.eng.ibuf s with
  | .error e => .error e
  | .ok (y, s') => .ok (xorBlock y s.eng.fb, { s' with eng.fb := s.eng.ibuf })

/-- `E_XFORM` (R233, R235): on an error `FB`, `IBUF` and the counters keep their values. -/
def engineXform (step : BlockStep) (s : State) : State :=
  match step s with
  | .error e => raise .engine e s
  | .ok (y, s') => { s' with eng.obuf := y, eng.ocnt := 0, eng.icnt := 0, eng.est := .drain }

/-- What ENGINE offers (R233). -/
def engineOffer (s : State) : Option Item :=
  match s.eng.est with
  | .drain => some (.data (readAt s.eng.obuf s.eng.ocnt.toNat))
  | .term t => some (.term t)
  | .idle | .fill | .xform | .done => none

/-- The "on transfer" actions of ENGINE (R233). -/
def engineSent (s : State) : State :=
  match s.eng.est with
  | .drain =>
    let s' := { s with eng.ocnt := s.eng.ocnt + 1 }
    if s'.eng.ocnt = 16 then { s' with eng.est := .fill } else s'
  | .term _ => { s with eng.est := .done }
  | .idle | .fill | .xform | .done => s

/-- internal(ENGINE) (R300). -/
def engineInner (step : BlockStep) (s : State) : Option State :=
  if s.eng.est = .xform then some (engineXform step s) else none

/-- ENGINE's counters within their bounds (R29; log 10). -/
def engineInBounds (s : State) : Bool :=
  match s.eng.est with
  | .fill => decide (s.eng.icnt < 16)
  | .drain => decide (s.eng.ocnt < 16)
  | .idle | .xform | .term _ | .done => true

/-- ENGINE alone, between `CH_IN` and `CH_OUT` (R292). -/
def enginePipeline (step : BlockStep) : Pipeline :=
  { filling := fun s => decide (s.eng.est = .fill),
    receive := engineReceive,
    offer := engineOffer,
    sent := engineSent,
    inner := engineInner step,
    inBounds := engineInBounds }

end Sys2Proof.Machine
end

