-- ==== Sys2Proof/Machine/Chaining.lean ====
section
/-! DEFINITION. The meanings of ECB.ENC, ECB.DEC, CBC.ENC, CBC.DEC (43_chaining.md R237 to R240). -/

namespace Sys2Proof.Machine

/-- The workers of ECB.ENC. -/
def ecbEncPipeline : Pipeline := enginePipeline (ecbStep .fwd)

/-- ECB.ENC (R237). -/
def execEcbEnc (k : KeySize) (s : State) : Host.Outcome State Fault Refusal := runCommand (.ecbEnc k) ecbEncPipeline s

/-- The workers of ECB.DEC. -/
def ecbDecPipeline : Pipeline := enginePipeline (ecbStep .inv)

/-- ECB.DEC (R238). -/
def execEcbDec (k : KeySize) (s : State) : Host.Outcome State Fault Refusal := runCommand (.ecbDec k) ecbDecPipeline s

/-- The workers of CBC.ENC. -/
def cbcEncPipeline : Pipeline := enginePipeline cbcEncStep

/-- CBC.ENC (R239). -/
def execCbcEnc (k : KeySize) (s : State) : Host.Outcome State Fault Refusal := runCommand (.cbcEnc k) cbcEncPipeline s

/-- The workers of CBC.DEC. -/
def cbcDecPipeline : Pipeline := enginePipeline cbcDecStep

/-- CBC.DEC (R240). -/
def execCbcDec (k : KeySize) (s : State) : Host.Outcome State Fault Refusal := runCommand (.cbcDec k) cbcDecPipeline s

end Sys2Proof.Machine
end

