-- ==== Sys2Proof/Machine/Pkcs7.lean ====
section
/-! DEFINITION. The PAD and UNPAD workers (44_padding.md R260 to R274) and the padded pipelines, with the internal channel
pairs `CH_A` and `CH_B` (44_padding.md R279, 45_stream_pipeline.md R292, R294). -/

namespace Sys2Proof.Machine

/-! ### PAD -/

/-- `PBUF[i] <- p` for `i` in `PCNT..BSZ-1` (R262). -/
def fillFrom (buf : PadBuffer) (lo hi : Nat) (p : Byte) : PadBuffer :=
  Vector.ofFn fun i => if lo ≤ i.val ∧ i.val < hi then p else buf[i]

/-- PAD in `P_FILL` receives an item (R262, R265). The pad amount is `BSZ - PCNT` (R261). -/
def padReceive (x : Item) (s : State) : State :=
  match x with
  | .data b =>
    let s' := { s with pad.pbuf := writeAt s.pad.pbuf s.pad.pcnt.toNat b, pad.pcnt := s.pad.pcnt + 1 }
    if s'.pad.pcnt = s'.latch.bsz then { s' with pad.pout := 0, pad.pst := .flush } else s'
  | .term .eos =>
    let p := s.latch.bsz - s.pad.pcnt
    { s with pad.pbuf := fillFrom s.pad.pbuf s.pad.pcnt.toNat s.latch.bsz.toNat p, pad.pcnt := s.latch.bsz,
             pad.plast := true, pad.pout := 0, pad.pst := .flush }
  | .term (.fail e) => raise .pad e s

/-- What PAD offers (R262). -/
def padOffer (s : State) : Option Item :=
  match s.pad.pst with
  | .flush => some (.data (readAt s.pad.pbuf s.pad.pout.toNat))
  | .term t => some (.term t)
  | .idle | .fill | .done => none

/-- The "on transfer" actions of PAD (R262), in front of ENGINE too: DESIGN CHOICE (log 18), a PAD that ENGINE strands by
ending with InvalidScheduleError may so stand in `P_TERM`, where R309 names `P_FILL` and `P_FLUSH` only. -/
def padSent (s : State) : State :=
  match s.pad.pst with
  | .flush =>
    let s' := { s with pad.pout := s.pad.pout + 1 }
    if s'.pad.pout = s'.latch.bsz then
      (if s'.pad.plast then toTerminal .pad .eos s' else { s' with pad.pcnt := 0, pad.pst := .fill })
    else s'
  | .term _ => { s with pad.pst := .done }
  | .idle | .fill | .done => s

/-- PAD's counters within their bounds (R30, R262; log 10). -/
def padInBounds (s : State) : Bool :=
  match s.pad.pst with
  | .fill => decide (s.pad.pcnt < s.latch.bsz)
  | .flush => decide (s.pad.pout < s.latch.bsz)
  | .idle | .term _ | .done => true

/-! ### UNPAD -/

/-- Point 3 of R272 does not fail: `N` is in 1..`BSZ` and the last `N` bytes of the block are all `N`. -/
def paddingValid (buf : PadBuffer) (bsz n : Byte) : Bool :=
  n != 0 && decide (n ≤ bsz) &&
    (List.range bsz.toNat).all fun i => decide (i < bsz.toNat - n.toNat) || readAt buf i == n

/-- UNPAD at the clean end of input (R270, R272). -/
def unpadEnd (s : State) : State :=
  if s.unp.ucnt = 0 then raise .unpad .pae s
  else if s.unp.ucnt < s.latch.bsz then raise .unpad .lce s
  else
    let n := readAt s.unp.ubuf (s.latch.bsz.toNat - 1)
    if paddingValid s.unp.ubuf s.latch.bsz n then
      let s' := { s with unp.ulim := s.latch.bsz - n, unp.ulast := true, unp.uout := 0 }
      if s'.unp.ulim = 0 then toTerminal .unpad .eos s' else { s' with unp.ust := .flush }
    else raise .unpad .pae s

/-- UNPAD in `U_FILL` receives an item (R270). -/
def unpadReceive (x : Item) (s : State) : State :=
  match x with
  | .data b =>
    if s.unp.ucnt < s.latch.bsz then
      { s with unp.ubuf := writeAt s.unp.ubuf s.unp.ucnt.toNat b, unp.ucnt := s.unp.ucnt + 1 }
    else { s with unp.upend := b, unp.uhave := true, unp.ulim := s.latch.bsz, unp.uout := 0, unp.ust := .flush }
  | .term .eos => unpadEnd s
  | .term (.fail e) => raise .unpad e s

/-- What UNPAD offers (R270). -/
def unpadOffer (s : State) : Option Item :=
  match s.unp.ust with
  | .flush => some (.data (readAt s.unp.ubuf s.unp.uout.toNat))
  | .term t => some (.term t)
  | .idle | .fill | .done => none

/-- The "on transfer" actions of UNPAD (R270). -/
def unpadSent (s : State) : State :=
  match s.unp.ust with
  | .flush =>
    let s' := { s with unp.uout := s.unp.uout + 1 }
    if s'.unp.uout = s'.unp.ulim then
      (if s'.unp.ulast then toTerminal .unpad .eos s'
       else { s' with unp.ubuf := writeAt s'.unp.ubuf 0 s'.unp.upend, unp.ucnt := 1, unp.uhave := false,
                      unp.ust := .fill })
    else s'
  | .term _ => { s with unp.ust := .done }
  | .idle | .fill | .done => s

/-- UNPAD's counters within their bounds (R32, R270; log 10). -/
def unpadInBounds (s : State) : Bool :=
  match s.unp.ust with
  | .fill => decide (s.unp.ucnt ≤ s.latch.bsz)
  | .flush => decide (s.unp.uout < s.unp.ulim) && decide (s.unp.ulim ≤ s.latch.bsz)
  | .idle | .term _ | .done => true

/-! ### The pipelines -/

/-- transfer(`CH_A`) (R300): PAD offers and ENGINE is in `E_FILL`. -/
def linkA (s : State) : Option State :=
  if s.eng.est = .fill then (padOffer s).map fun x => engineReceive x (padSent s) else none

/-- transfer(`CH_B`) (R300): ENGINE offers and UNPAD is in `U_FILL`. -/
def linkB (s : State) : Option State :=
  if s.unp.ust = .fill then (engineOffer s).map fun x => unpadReceive x (engineSent s) else none

/-- PAD alone, between `CH_IN` and `CH_OUT` (R292). -/
def padPipeline : Pipeline :=
  { filling := fun s => decide (s.pad.pst = .fill),
    receive := padReceive,
    offer := padOffer,
    sent := padSent,
    inner := fun _ => none,
    inBounds := padInBounds }

/-- UNPAD alone, between `CH_IN` and `CH_OUT` (R292). -/
def unpadPipeline : Pipeline :=
  { filling := fun s => decide (s.unp.ust = .fill),
    receive := unpadReceive,
    offer := unpadOffer,
    sent := unpadSent,
    inner := fun _ => none,
    inBounds := unpadInBounds }

/-- PAD, then ENGINE, joined by `CH_A` (R279, R292). internal(ENGINE) and transfer(`CH_A`) are never enabled together. -/
def padEnginePipeline (step : BlockStep) : Pipeline :=
  { filling := fun s => decide (s.pad.pst = .fill),
    receive := padReceive,
    offer := engineOffer,
    sent := engineSent,
    inner := fun s => (engineInner step s).or (linkA s),
    inBounds := fun s => padInBounds s && engineInBounds s }

/-- ENGINE, then UNPAD, joined by `CH_B` (R279, R292). internal(ENGINE) and transfer(`CH_B`) are never enabled together. -/
def engineUnpadPipeline (step : BlockStep) : Pipeline :=
  { filling := fun s => decide (s.eng.est = .fill),
    receive := engineReceive,
    offer := unpadOffer,
    sent := unpadSent,
    inner := fun s => (engineInner step s).or (linkB s),
    inBounds := fun s => engineInBounds s && unpadInBounds s }

end Sys2Proof.Machine
end

