-- ==== Sys2Proof/Machine/Padding.lean ====
section
/-! DEFINITION. The meanings of PAD, UNPAD and the four padded pipelines (44_padding.md R263, R271, R275 to R278). -/

namespace Sys2Proof.Machine

/-- PAD (R263). -/
def execPad (s : State) : Host.Outcome State Fault Refusal := runCommand .pad padPipeline s

/-- UNPAD (R271). -/
def execUnpad (s : State) : Host.Outcome State Fault Refusal := runCommand .unpad unpadPipeline s

/-- The workers of ECB.ENC.PAD. -/
def ecbEncPadPipeline : Pipeline := padEnginePipeline (ecbStep .fwd)

/-- ECB.ENC.PAD (R275). -/
def execEcbEncPad (k : KeySize) (s : State) : Host.Outcome State Fault Refusal :=
  runCommand (.ecbEncPad k) ecbEncPadPipeline s

/-- The workers of ECB.DEC.UNPAD. -/
def ecbDecUnpadPipeline : Pipeline := engineUnpadPipeline (ecbStep .inv)

/-- ECB.DEC.UNPAD (R276). -/
def execEcbDecUnpad (k : KeySize) (s : State) : Host.Outcome State Fault Refusal :=
  runCommand (.ecbDecUnpad k) ecbDecUnpadPipeline s

/-- The workers of CBC.ENC.PAD. -/
def cbcEncPadPipeline : Pipeline := padEnginePipeline cbcEncStep

/-- CBC.ENC.PAD (R277). -/
def execCbcEncPad (k : KeySize) (s : State) : Host.Outcome State Fault Refusal :=
  runCommand (.cbcEncPad k) cbcEncPadPipeline s

/-- The workers of CBC.DEC.UNPAD. -/
def cbcDecUnpadPipeline : Pipeline := engineUnpadPipeline cbcDecStep

/-- CBC.DEC.UNPAD (R278). -/
def execCbcDecUnpad (k : KeySize) (s : State) : Host.Outcome State Fault Refusal :=
  runCommand (.cbcDecUnpad k) cbcDecUnpadPipeline s

end Sys2Proof.Machine
end

