-- ==== Sys2Proof/Machine/RoundCommands.lean ====
section
/-! DEFINITION. The meanings of the seven primitive commands (40_round_primitives.md R141, R148 to R154). -/

namespace Sys2Proof.Machine

/-- The workers of SUBBYTES. -/
def subBytesPipeline : Pipeline := blockPipeline fun s => computePrimitive (applyPrimitive .subBytes s.latch.blk s.latch.key) s

/-- SUBBYTES (R148). -/
def execSubBytes (s : State) : Host.Outcome State Fault Refusal := runCommand .subBytes subBytesPipeline s

/-- The workers of INVSUBBYTES. -/
def invSubBytesPipeline : Pipeline := blockPipeline fun s => computePrimitive (applyPrimitive .invSubBytes s.latch.blk s.latch.key) s

/-- INVSUBBYTES (R149). -/
def execInvSubBytes (s : State) : Host.Outcome State Fault Refusal := runCommand .invSubBytes invSubBytesPipeline s

/-- The workers of SHIFTROWS. -/
def shiftRowsPipeline : Pipeline := blockPipeline fun s => computePrimitive (applyPrimitive .shiftRows s.latch.blk s.latch.key) s

/-- SHIFTROWS (R150). -/
def execShiftRows (s : State) : Host.Outcome State Fault Refusal := runCommand .shiftRows shiftRowsPipeline s

/-- The workers of INVSHIFTROWS. -/
def invShiftRowsPipeline : Pipeline := blockPipeline fun s => computePrimitive (applyPrimitive .invShiftRows s.latch.blk s.latch.key) s

/-- INVSHIFTROWS (R151). -/
def execInvShiftRows (s : State) : Host.Outcome State Fault Refusal := runCommand .invShiftRows invShiftRowsPipeline s

/-- The workers of MIXCOLUMNS. -/
def mixColumnsPipeline : Pipeline := blockPipeline fun s => computePrimitive (applyPrimitive .mixColumns s.latch.blk s.latch.key) s

/-- MIXCOLUMNS (R152). -/
def execMixColumns (s : State) : Host.Outcome State Fault Refusal := runCommand .mixColumns mixColumnsPipeline s

/-- The workers of INVMIXCOLUMNS. -/
def invMixColumnsPipeline : Pipeline :=
  blockPipeline fun s => computePrimitive (applyPrimitive .invMixColumns s.latch.blk s.latch.key) s

/-- INVMIXCOLUMNS (R153). -/
def execInvMixColumns (s : State) : Host.Outcome State Fault Refusal := runCommand .invMixColumns invMixColumnsPipeline s

/-- The workers of ADDROUNDKEY: `KEY` is used as the round key, unexpanded (R154). -/
def addRoundKeyPipeline : Pipeline := blockPipeline fun s => computePrimitive (applyPrimitive .addRoundKey s.latch.blk s.latch.key) s

/-- ADDROUNDKEY (R154). -/
def execAddRoundKey (s : State) : Host.Outcome State Fault Refusal := runCommand .addRoundKey addRoundKeyPipeline s

end Sys2Proof.Machine
end

