-- ==== Sys2Proof/Machine/Dispatch.lean ====
section
/-! DEFINITION. What a command does at one clock edge, command by command. -/

namespace Sys2Proof.Machine

/-- The meaning of the command `i`: its acceptance while the core is idle, one clock edge of its workers while it runs. -/
def exec (i : Instr) (s : State) : Host.Outcome State Fault Refusal :=
  match i with
  | .subBytes => Sys2Proof.Machine.execSubBytes s
  | .invSubBytes => Sys2Proof.Machine.execInvSubBytes s
  | .shiftRows => Sys2Proof.Machine.execShiftRows s
  | .invShiftRows => Sys2Proof.Machine.execInvShiftRows s
  | .mixColumns => Sys2Proof.Machine.execMixColumns s
  | .invMixColumns => Sys2Proof.Machine.execInvMixColumns s
  | .addRoundKey => Sys2Proof.Machine.execAddRoundKey s
  | .keySched k => Sys2Proof.Machine.execKeySched k s
  | .blockEnc k => Sys2Proof.Machine.execBlockEnc k s
  | .blockDec k => Sys2Proof.Machine.execBlockDec k s
  | .ecbEnc k => Sys2Proof.Machine.execEcbEnc k s
  | .ecbDec k => Sys2Proof.Machine.execEcbDec k s
  | .cbcEnc k => Sys2Proof.Machine.execCbcEnc k s
  | .cbcDec k => Sys2Proof.Machine.execCbcDec k s
  | .ecbEncPad k => Sys2Proof.Machine.execEcbEncPad k s
  | .ecbDecUnpad k => Sys2Proof.Machine.execEcbDecUnpad k s
  | .cbcEncPad k => Sys2Proof.Machine.execCbcEncPad k s
  | .cbcDecUnpad k => Sys2Proof.Machine.execCbcDecUnpad k s
  | .pad => Sys2Proof.Machine.execPad s
  | .unpad => Sys2Proof.Machine.execUnpad s

end Sys2Proof.Machine
end

