-- ==== Sys2Proof/Machine/Fetch.lean ====
section
/-! DEFINITION. What a clock edge does: reset, abort, nothing, or a command, and which (45_stream_pipeline.md R300, R301,
60_exceptions.md R357, 30_encoding.md R108, R109); how the host's moves are used up; placing a command on the port. -/

namespace Sys2Proof.Machine

/-- What happens at an edge, in the priority of R357. -/
inductive EdgeKind
  /-- `rst` = 1 -/
  | reset
  /-- `abort` = 1, `rst` = 0 -/
  | abort
  /-- the core is idle and no command is offered -/
  | quiet
  /-- the core is idle and a reserved word is offered (R109) -/
  | reserved
  /-- the command accepted at this edge, or the one that runs -/
  | command (i : Instr)
  /-- the core runs and `CMDR` holds no legal command (log 10) -/
  | badLatch
  deriving DecidableEq, Repr

/-- The kind of the coming edge. An idle core reads the command from the port, a running one from `CMDR`. -/
def edgeKind (s : State) : EdgeKind :=
  let p := inPorts s
  if p.rst then .reset
  else if p.abort then .abort
  else match s.top with
    | .idle =>
      if p.cmdValid then
        match decode p.cmd with
        | some i => .command i
        | none => .reserved
      else .quiet
    | .run =>
      match decode s.latch.cmdr with
      | some i => .command i
      | none => .badLatch

/-- After an edge: the host's move is used up and the edge is counted. -/
def closeEdge (s : State) : State := { s with env := { s.env with moves := s.env.moves.tail }, edges := s.edges + 1 }

/-- `closeEdge` after a command's meaning. -/
def closeOutcome (o : Host.Outcome State Fault Refusal) : Host.Outcome State Fault Refusal :=
  match o with
  | .next s => .next (closeEdge s)
  | .fault f => .fault f
  | .refused r => .refused r

/-- The state with the command word `w` on the port of an idle core and nothing that outranks it (log 11): `TOP` is IDLE,
the host offers and takes all it can, the word stands on `cmd` with `cmd_valid`, and `blksz`, if 0, is 16, so that a command that uses PAD
or UNPAD is legal. The other operand wires, the input offers and every register stay as they are. -/
def placeCommand (s : State) (w : BitVec 8) : State :=
  { s with
    top := .idle,
    env := { s.env with
      moves := [],
      rest := Move.eager,
      cmdValid := true,
      job := { s.env.job with cmd := w, blksz := if s.env.job.blksz = 0 then 16 else s.env.job.blksz } } }

end Sys2Proof.Machine
end

