-- ==== Sys2Proof/Machine/Step.lean ====
section
/-! DEFINITION. One step of the machine: one rising edge of `clk` (45_stream_pipeline.md R301). -/

namespace Sys2Proof.Machine

/-- One rising edge of `clk`. -/
def step (s : State) : Host.Outcome State Fault Refusal :=
  match edgeKind s with
  | .reset => .next (closeEdge (resetEdge s))
  | .abort => .next (closeEdge (abortEdge s))
  | .quiet => .next (closeEdge s)
  | .reserved => .refused .reservedCommand
  | .command i => closeOutcome (exec i s)
  | .badLatch => .fault .illegalLatch

/-- `s` with the command word `w` on the command port, so that the next step accepts it (log 11). A command is one 8-bit
word (R100), so `nbits` is 8. -/
def State.withFetchWord (s : State) (_nbits w : Nat) : State := placeCommand s (BitVec.ofNat 8 w)

end Sys2Proof.Machine
end

