-- ==== Sys2Proof/Machine/Ports.lean ====
section
/-! DEFINITION. The output wires of the core as a function of its state (30_encoding.md R110). -/

namespace Sys2Proof.Machine

/-- The workers of each command, wired as R292 says. -/
def pipelineOf : Instr → Pipeline
  | .subBytes => subBytesPipeline
  | .invSubBytes => invSubBytesPipeline
  | .shiftRows => shiftRowsPipeline
  | .invShiftRows => invShiftRowsPipeline
  | .mixColumns => mixColumnsPipeline
  | .invMixColumns => invMixColumnsPipeline
  | .addRoundKey => addRoundKeyPipeline
  | .keySched _ => keysPipeline
  | .blockEnc _ => blockEncPipeline
  | .blockDec _ => blockDecPipeline
  | .ecbEnc _ => ecbEncPipeline
  | .ecbDec _ => ecbDecPipeline
  | .cbcEnc _ => cbcEncPipeline
  | .cbcDec _ => cbcDecPipeline
  | .ecbEncPad _ => ecbEncPadPipeline
  | .ecbDecUnpad _ => ecbDecUnpadPipeline
  | .cbcEncPad _ => cbcEncPadPipeline
  | .cbcDecUnpad _ => cbcDecUnpadPipeline
  | .pad => padPipeline
  | .unpad => unpadPipeline

/-- The output wires (R105, R110). -/
def outPorts (s : State) : OutPorts :=
  match decode s.latch.cmdr with
  | some i => statusPorts s.top ((pipelineOf i).filling s) ((pipelineOf i).offer s) s.edges
  | none => statusPorts s.top false none s.edges

end Sys2Proof.Machine
end

