-- ==== Sys2Proof/Safety.lean ====
section
/-! DEFINITION. The terms claims are stated in: the invariant of the core, what a command may report (60_exceptions.md
R346), runs of steps, and the stream functions of the commands (43_chaining.md R243, 44_padding.md R264, R273, R279). -/

namespace Sys2Proof.Safety

open Sys2Proof.Machine

/-! ### The invariant -/

/-- The eleven round keys of a key (R185). -/
def scheduleOf (key : Block) : RoundKeys := (keyExpand .k128 key State.reset.sched).rk

/-- A worker is in its IDLE state (R35). -/
def workerIdle (w : Worker) (s : State) : Bool :=
  match w with
  | .oneshot => s.one.ost = .idle
  | .pad => s.pad.pst = .idle
  | .engine => s.eng.est = .idle
  | .unpad => s.unp.ust = .idle

/-- A worker is in its DONE state (R35). -/
def workerDone (w : Worker) (s : State) : Bool :=
  match w with
  | .oneshot => s.one.ost = .done
  | .pad => s.pad.pst = .done
  | .engine => s.eng.est = .done
  | .unpad => s.unp.ust = .done

/-- The terminal a worker offers, if it is in its TERM state (R35). -/
def workerTerminal (w : Worker) (s : State) : Option Terminal :=
  match w with
  | .oneshot => match s.one.ost with
    | .term t => some t
    | .idle | .compute | .emit | .done => none
  | .pad => match s.pad.pst with
    | .term t => some t
    | .idle | .fill | .flush | .done => none
  | .engine => match s.eng.est with
    | .term t => some t
    | .idle | .fill | .xform | .drain | .done => none
  | .unpad => match s.unp.ust with
    | .term t => some t
    | .idle | .fill | .flush | .done => none

/-- InvalidScheduleError can be raised: the command selects a key size without a schedule (R342). -/
def iseTerminal (k : KeySize) : List Terminal := if k = .k128 then [] else [.fail .ise]

/-- The terminals a command can deliver (R346), with ISE only where R342 allows it. -/
def reportable : Instr → List Terminal
  | .subBytes | .invSubBytes | .shiftRows | .invShiftRows | .mixColumns | .invMixColumns | .addRoundKey => [.eos]
  | .keySched _ => [.eos]
  | .blockEnc k | .blockDec k => if k = .k128 then [.eos] else [.fail .ise]
  | .ecbEnc k | .ecbDec k | .cbcEnc k | .cbcDec k => [.eos, .fail .lce, .fail .te] ++ iseTerminal k
  | .ecbEncPad k | .cbcEncPad k => [.eos, .fail .lce, .fail .te] ++ iseTerminal k
  | .ecbDecUnpad k | .cbcDecUnpad k => [.eos, .fail .lce, .fail .te, .fail .pae] ++ iseTerminal k
  | .pad => [.eos, .fail .te]
  | .unpad => [.eos, .fail .lce, .fail .te, .fail .pae]

/-- The terminals one worker of a command can offer: PAD raises nothing of its own (R265), ENGINE raises LCE and ISE
(R341, R342). -/
def workerReportable (i : Instr) (w : Worker) : List Terminal :=
  match w with
  | .oneshot | .unpad => reportable i
  | .pad => [.eos, .fail .te]
  | .engine => [.eos, .fail .lce, .fail .te] ++ iseTerminal (keySizeOf i)

/-- What holds while the command `i` runs. -/
structure RunInv (i : Instr) (s : State) : Prop where
  /-- `CMDR` holds the command (R22) -/
  latched : s.latch.cmdr = encode i
  /-- the latched block size makes the command legal (R109) -/
  blockSize : blockSizeOk i s.latch.bsz = true
  /-- exactly the workers the command uses have left IDLE (R292) -/
  wired : ∀ w, workerIdle w s = true ↔ w ∉ workersOf i
  /-- the last worker has not delivered its terminal (R309) -/
  unfinished : ∀ w, (workersOf i).getLast? = some w → workerDone w s = false
  /-- the schedule is valid exactly for the commands that use one with a 128-bit key (R27, R186) -/
  keyCount : s.sched.rkn = if usesSchedule i = true ∧ keySizeOf i = .k128 then 11 else 0
  /-- a valid schedule is that of the latched key (R27) -/
  keys : s.sched.rkn = 11 → s.sched.rk = scheduleOf s.latch.key
  /-- the counters are within their bounds (R157) -/
  bounds : (pipelineOf i).inBounds s = true
  /-- a full input block is exactly 16 bytes (R29, R233) -/
  fullBlock : s.eng.est = .xform → s.eng.icnt = 16
  /-- the input block is empty while the output block drains (R233) -/
  emptyBlock : s.eng.est = .drain → s.eng.icnt = 0
  /-- ONESHOT sends round keys, or a block of the block core, only with a valid schedule (R187, R203, R206) -/
  validSchedule : usesSchedule i = true → s.one.ost = .emit → s.sched.rkn = 11
  /-- every terminal on offer is one the command can report (R346) -/
  terminals : ∀ w t, workerTerminal w s = some t → t ∈ workerReportable i w

/-- The invariant of the core: `RKN` is 0 or 11 (R27), and while the core runs, it runs a legal command (R22). -/
structure Inv (s : State) : Prop where
  keyCount : s.sched.rkn = 0 ∨ s.sched.rkn = 11
  running : s.top = .run → ∃ i, RunInv i s

/-- The four block steps of ENGINE (R234). -/
inductive ChainMode
  | ecbEnc
  | ecbDec
  | cbcEnc
  | cbcDec
  deriving DecidableEq, Repr

/-! ### The commands by shape, and the tables of the spec the statements compare the meanings with -/

/-- The seven primitive commands (R140, R141). -/
def primitiveCommands : List Instr :=
  [.subBytes, .invSubBytes, .shiftRows, .invShiftRows, .mixColumns, .invMixColumns, .addRoundKey]

/-- The compute step of a primitive command (R141): `S` takes the result `y BLK KEY`, `OJ` is 0, ONESHOT goes to `O_EMIT`,
and nothing else changes. -/
def computesBlock (i : Instr) (y : Block → Block → Block) : Prop :=
  ∀ s : State, s.top = .run → s.one.ost = .compute → (currentMove s).go = true →
    exec i s = .next { s with core.sreg := y s.latch.blk s.latch.key, one.oj := 0, one.ost := .emit }

/-- How ONESHOT sends the block in `S` and then its terminal (R141, R206): byte `OJ` if the host takes it, `OJ` counted,
`O_TERM(End)` after the sixteenth; the terminal if the host takes it, and the core is idle. Nothing else changes, and a host
that does not take leaves everything as it is. -/
def sendsBlock (i : Instr) : Prop :=
  ∀ s : State, s.top = .run →
    (s.one.ost = .emit → s.one.oj < 16 →
      exec i s =
        if (inPorts s).outReady = true then
          .next { s with
            one.oj := s.one.oj + 1, one.ost := if s.one.oj = 15 then .term .eos else .emit,
            env := { s.env with taken := s.env.taken ++ [.data (readAt s.core.sreg s.one.oj.toNat)] } }
        else .next s) ∧
    ∀ t : Terminal, s.one.ost = .term t →
      exec i s =
        if (inPorts s).outTermReady = true then
          .next { s with top := .idle, one.ost := .done, env := { s.env with taken := s.env.taken ++ [.term t] } }
        else .next s

/-- A worker is in its FILL state, waiting in `recv()` (R35). ONESHOT has none. -/
def workerFilling (w : Worker) (s : State) : Bool :=
  match w with
  | .oneshot => false
  | .pad => s.pad.pst = .fill
  | .engine => s.eng.est = .fill
  | .unpad => s.unp.ust = .fill

/-- A worker is in its send state, waiting in `send()` (R35). -/
def workerSending (w : Worker) (s : State) : Bool :=
  match w with
  | .oneshot => s.one.ost = .emit
  | .pad => s.pad.pst = .flush
  | .engine => s.eng.est = .drain
  | .unpad => s.unp.ust = .flush

/-- The byte in flight of a worker in its send state (R34): `S[OJ]` or `RK[OI][OJ]`, `PBUF[POUT]`, `OBUF[OCNT]`,
`UBUF[UOUT]`. -/
def byteInFlight (i : Instr) (w : Worker) (s : State) : Byte :=
  match w with
  | .oneshot =>
    if (opField (encode i)).toNat = 4 then readAt (roundKeyAt s.sched.rk s.one.oi.toNat) s.one.oj.toNat
    else readAt s.core.sreg s.one.oj.toNat
  | .pad => readAt s.pad.pbuf s.pad.pout.toNat
  | .engine => readAt s.eng.obuf s.eng.ocnt.toNat
  | .unpad => readAt s.unp.ubuf s.unp.uout.toNat

/-- The chaining command of a mode, without a PKCS#7 unit (R237 to R240). -/
def chainCommand (m : ChainMode) (k : KeySize) : Instr :=
  match m with
  | .ecbEnc => .ecbEnc k
  | .ecbDec => .ecbDec k
  | .cbcEnc => .cbcEnc k
  | .cbcDec => .cbcDec k

/-- The padded command of an encrypting mode, the unpadded command of a decrypting one (R275 to R278). -/
def paddedCommand (m : ChainMode) (k : KeySize) : Instr :=
  match m with
  | .ecbEnc => .ecbEncPad k
  | .ecbDec => .ecbDecUnpad k
  | .cbcEnc => .cbcEncPad k
  | .cbcDec => .cbcDecUnpad k

/-- `DIR` of a mode. -/
def encrypts : ChainMode → Bool
  | .ecbEnc | .cbcEnc => true
  | .ecbDec | .cbcDec => false

/-- What the block core leaves in `S` for an input block `x` and the feedback `fb` (R234). -/
def coreResult (m : ChainMode) (rk : RoundKeys) (x fb : Block) : Block :=
  match m with
  | .ecbEnc => encrypt rk x
  | .ecbDec | .cbcDec => decrypt rk x
  | .cbcEnc => encrypt rk (xorBlock x fb)

/-- `Y` of R234. -/
def blockStepOutput (m : ChainMode) (rk : RoundKeys) (x fb : Block) : Block :=
  match m with
  | .ecbEnc | .ecbDec | .cbcEnc => coreResult m rk x fb
  | .cbcDec => xorBlock (decrypt rk x) fb

/-- `FB` after the block step of R234. -/
def blockStepFeedback (m : ChainMode) (rk : RoundKeys) (x fb : Block) : Block :=
  match m with
  | .ecbEnc | .ecbDec => fb
  | .cbcEnc => encrypt rk (xorBlock x fb)
  | .cbcDec => x

/-! ### Runs -/

/-- `n` edges, `none` if one of them stops. -/
def runFor : Nat → State → Option State
  | 0, s => some s
  | n + 1, s =>
    match step s with
    | .next t => runFor n t
    | .fault _ | .refused _ => none

/-- The parts of an edge in which the core and the host take part (R300). -/
inductive EdgePart
  /-- an internal step or an internal transfer -/
  | inner
  /-- a transfer on `CH_IN` -/
  | input
  /-- a transfer on `CH_OUT` -/
  | output
  deriving DecidableEq, Repr

/-- One part of the edge that falls at the state `s0`, applied to a state: nothing, if the part does not fall there. -/
def applyPart (p : Pipeline) (s0 s : State) (part : EdgePart) : State :=
  match part with
  | .inner => if (p.innerAt s0).isSome then (p.inner s).getD s else s
  | .input => match p.inputAt s0 with
    | some x => hostSent x (p.receive x s)
    | none => s
  | .output => match p.outputAt s0 with
    | some x => hostTook x (p.sent s)
    | none => s

/-! ### Stream functions -/

/-- A stream: bytes, then one terminal (R18). -/
structure Stream where
  bytes : List Byte
  last : Terminal
  deriving DecidableEq, Repr

/-- The items of a stream, in order. -/
def Stream.items (x : Stream) : List Item := x.bytes.map .data ++ [.term x.last]

/-- The stream function of PAD (R264). -/
def padStream (bsz : Nat) (x : Stream) : Stream :=
  let n := x.bytes.length
  match x.last with
  | .eos => ⟨x.bytes ++ List.replicate (bsz - n % bsz) (BitVec.ofNat 8 (bsz - n % bsz)), .eos⟩
  | .fail e => ⟨x.bytes.take (n / bsz * bsz), .fail e⟩

/-- "Padding valid" for a non-empty stream of whole blocks (R272 point 3, R273): `N`, the last byte, is in 1..`BSZ` and
the last `N` bytes are all `N`. -/
def validPadding (bsz : Nat) (xs : List Byte) : Bool :=
  let n := (xs.getLastD 0).toNat
  n != 0 && decide (n ≤ bsz) && (xs.drop (xs.length - n)).all fun b => b == xs.getLastD 0

/-- The stream function of UNPAD (R273). -/
def unpadStream (bsz : Nat) (x : Stream) : Stream :=
  let n := x.bytes.length
  let released := if n % bsz = 0 then n - bsz else n / bsz * bsz
  match x.last with
  | .fail e => ⟨x.bytes.take released, .fail e⟩
  | .eos =>
    if n = 0 then ⟨[], .fail .pae⟩
    else if n % bsz ≠ 0 then ⟨x.bytes.take released, .fail .lce⟩
    else if validPadding bsz x.bytes then ⟨x.bytes.take (n - (x.bytes.getLastD 0).toNat), .eos⟩
    else ⟨x.bytes.take released, .fail .pae⟩

/-- Block `k` of a byte sequence (R243). -/
def blockOf (xs : List Byte) (k : Nat) : Block := Vector.ofFn fun i : Fin 16 => xs.getD (16 * k + i.val) 0

/-- Output block `k` (R243), with `Y_{-1}` or `X_{-1}` the initial value. -/
def outBlock (m : ChainMode) (rk : RoundKeys) (iv : Block) (xs : List Byte) : Nat → Block
  | 0 =>
    match m with
    | .ecbEnc => encrypt rk (blockOf xs 0)
    | .ecbDec => decrypt rk (blockOf xs 0)
    | .cbcEnc => encrypt rk (xorBlock (blockOf xs 0) iv)
    | .cbcDec => xorBlock (decrypt rk (blockOf xs 0)) iv
  | k + 1 =>
    match m with
    | .ecbEnc => encrypt rk (blockOf xs (k + 1))
    | .ecbDec => decrypt rk (blockOf xs (k + 1))
    | .cbcEnc => encrypt rk (xorBlock (blockOf xs (k + 1)) (outBlock m rk iv xs k))
    | .cbcDec => xorBlock (decrypt rk (blockOf xs (k + 1))) (blockOf xs k)

/-- The stream function of ENGINE (R243); `valid` is `RKN` = 11. -/
def chainStream (m : ChainMode) (valid : Bool) (rk : RoundKeys) (iv : Block) (x : Stream) : Stream :=
  let n := x.bytes.length
  let ys := (List.range (n / 16)).flatMap fun k => (outBlock m rk iv x.bytes k).toList
  if valid = false ∧ 16 ≤ n then ⟨[], .fail .ise⟩
  else match x.last with
    | .fail e => ⟨ys, .fail e⟩
    | .eos => if n % 16 = 0 then ⟨ys, .eos⟩ else ⟨ys, .fail .lce⟩

/-- The result of a BLOCK command as a stream (R206). -/
def blockStream (k : KeySize) (y : Block) : Stream := if k = .k128 then ⟨y.toList, .eos⟩ else ⟨[], .fail .ise⟩

/-- The stream a command delivers on `CH_OUT`, as a function of its operands and its input stream (R306). -/
def streamOf (i : Instr) (key iv blk : Block) (bsz : Nat) (x : Stream) : Stream :=
  let rk := scheduleOf key
  match i with
  | .subBytes => ⟨(subBytes blk).toList, .eos⟩
  | .invSubBytes => ⟨(invSubBytes blk).toList, .eos⟩
  | .shiftRows => ⟨(shiftRows blk).toList, .eos⟩
  | .invShiftRows => ⟨(invShiftRows blk).toList, .eos⟩
  | .mixColumns => ⟨(mixColumns blk).toList, .eos⟩
  | .invMixColumns => ⟨(invMixColumns blk).toList, .eos⟩
  | .addRoundKey => ⟨(addRoundKey blk key).toList, .eos⟩
  | .keySched k => ⟨if k = .k128 then rk.toList.flatMap (·.toList) else [], .eos⟩
  | .blockEnc k => blockStream k (encrypt rk blk)
  | .blockDec k => blockStream k (decrypt rk blk)
  | .ecbEnc k => chainStream .ecbEnc (decide (k = .k128)) rk iv x
  | .ecbDec k => chainStream .ecbDec (decide (k = .k128)) rk iv x
  | .cbcEnc k => chainStream .cbcEnc (decide (k = .k128)) rk iv x
  | .cbcDec k => chainStream .cbcDec (decide (k = .k128)) rk iv x
  | .ecbEncPad k => chainStream .ecbEnc (decide (k = .k128)) rk iv (padStream bsz x)
  | .ecbDecUnpad k => unpadStream bsz (chainStream .ecbDec (decide (k = .k128)) rk iv x)
  | .cbcEncPad k => chainStream .cbcEnc (decide (k = .k128)) rk iv (padStream bsz x)
  | .cbcDecUnpad k => unpadStream bsz (chainStream .cbcDec (decide (k = .k128)) rk iv x)
  | .pad => padStream bsz x
  | .unpad => unpadStream bsz x

/-- The offers with which the host presents an input stream, one item each, never two at once (R303). -/
def offersOf (xs : List Byte) (failed : Bool) : List Offer := xs.map .byte ++ [.term failed]

/-- The host asserts neither reset nor abort at any coming edge. -/
def undisturbed (s : State) : Prop := ∀ m ∈ s.env.rest :: s.env.moves, m.rst = false ∧ m.abort = false

/-- From some edge on the host makes every offer it has and takes every item it is offered (the premise of R306). -/
def willing (s : State) : Prop :=
  s.env.rest.offerCmd = true ∧ s.env.rest.offerIn = true ∧ s.env.rest.outReady = true ∧ s.env.rest.outTermReady = true

/-- An idle core whose host offers the one command `i` with a legal block size, withdraws what is still offered from
before, and will feed the input stream `xs`, ended by `failed`, at whatever pace (R303, R306). -/
structure Offered (i : Instr) (xs : List Byte) (failed : Bool) (s : State) : Prop where
  idle : s.top = .idle
  valid : s.env.cmdValid = true
  word : s.env.job.cmd = encode i
  legal : blockSizeOk i s.env.job.blksz = true
  feed : s.env.job.feed = offersOf xs failed
  fresh : s.env.job.keepStale = false
  only : s.env.jobs = []
  calm : undisturbed s

/-- The stream the offered command delivers. -/
def promised (i : Instr) (xs : List Byte) (failed : Bool) (s : State) : Stream :=
  streamOf i (blockOfPort s.env.job.key) (blockOfPort s.env.job.iv) (blockOfPort s.env.job.blk) s.env.job.blksz.toNat
    ⟨xs, inputTerminal failed⟩

end Sys2Proof.Safety
end

