-- ==== Sys2Proof/Certificates/Slice0/Obligations.lean ====
section
/-! DEFINITION. The statements for the provers. Each docstring names the rule of spec/ it formalises. -/

open Sys2Proof Sys2Proof.Machine Sys2Proof.Safety

/-! ### Encoding -/

/-- R115: the command map. `k` is the `KSZ` field; its value is added as 0x40, 0x80, 0xC0. No other word is a command. -/
def Obligations.CommandWordsAreTheCommandMap : Prop :=
  decode 0x00 = some .subBytes ∧ decode 0x10 = some .invSubBytes ∧
  decode 0x01 = some .shiftRows ∧ decode 0x11 = some .invShiftRows ∧
  decode 0x02 = some .mixColumns ∧ decode 0x12 = some .invMixColumns ∧
  decode 0x03 = some .addRoundKey ∧ decode 0x08 = some .pad ∧ decode 0x18 = some .unpad ∧
  (∀ k : BitVec 2,
    decode (0x04 + 0x40 * k.zeroExtend 8) = some (.keySched (decodeKeySize k)) ∧
    decode (0x05 + 0x40 * k.zeroExtend 8) = some (.blockEnc (decodeKeySize k)) ∧
    decode (0x15 + 0x40 * k.zeroExtend 8) = some (.blockDec (decodeKeySize k)) ∧
    decode (0x06 + 0x40 * k.zeroExtend 8) = some (.ecbEnc (decodeKeySize k)) ∧
    decode (0x16 + 0x40 * k.zeroExtend 8) = some (.ecbDec (decodeKeySize k)) ∧
    decode (0x07 + 0x40 * k.zeroExtend 8) = some (.cbcEnc (decodeKeySize k)) ∧
    decode (0x17 + 0x40 * k.zeroExtend 8) = some (.cbcDec (decodeKeySize k)) ∧
    decode (0x26 + 0x40 * k.zeroExtend 8) = some (.ecbEncPad (decodeKeySize k)) ∧
    decode (0x36 + 0x40 * k.zeroExtend 8) = some (.ecbDecUnpad (decodeKeySize k)) ∧
    decode (0x27 + 0x40 * k.zeroExtend 8) = some (.cbcEncPad (decodeKeySize k)) ∧
    decode (0x37 + 0x40 * k.zeroExtend 8) = some (.cbcDecUnpad (decodeKeySize k)) ∧
    encodeKeySize (decodeKeySize k) = k) ∧
  ∀ w : BitVec 8, (decode w).isSome = true →
    w ∈ ([0x00, 0x10, 0x01, 0x11, 0x02, 0x12, 0x03, 0x08, 0x18] : List (BitVec 8)) ∨
    w &&& 0x3F ∈ ([0x04, 0x05, 0x15, 0x06, 0x16, 0x07, 0x17, 0x26, 0x36, 0x27, 0x37] : List (BitVec 8))

/-- Decoding undoes encoding for every command, and a word decodes to a command only if it is that command's encoding. -/
def Obligations.DecodingAndEncodingAgree : Prop :=
  (∀ i : Instr, decode (encode i) = some i) ∧ ∀ (w : BitVec 8) (i : Instr), decode w = some i → w = encode i

/-- R109: which words are legal, that there are 53, and that the idle core accepts exactly the legal commands. -/
def Obligations.ExactlyTheLegalCommandsAreAccepted : Prop :=
  (∀ w blksz : BitVec 8,
    (∃ i, decode w = some i ∧ blockSizeOk i blksz = true) ↔
      (opField w).toNat ≤ 8 ∧
      (padenField w = 1 → (opField w).toNat = 6 ∨ (opField w).toNat = 7) ∧
      ((opField w).toNat = 3 ∨ (opField w).toNat = 4 → dirField w = 0) ∧
      ((opField w).toNat < 4 ∨ (opField w).toNat = 8 → kszField w = 0) ∧
      ((opField w).toNat = 8 ∨ padenField w = 1 → blksz ≠ 0)) ∧
  ((List.range 256).filter fun n => (decode (BitVec.ofNat 8 n)).isSome).length = 53 ∧
  ∀ s : State, s.top = .idle → (inPorts s).rst = false → (inPorts s).abort = false → (inPorts s).cmdValid = true →
    ((∃ i, decode (inPorts s).cmd = some i ∧ blockSizeOk i (inPorts s).blksz = true) ↔
      ∃ t, step s = .next t ∧ t.top = .run) ∧
    ((¬∃ i, decode (inPorts s).cmd = some i ∧ blockSizeOk i (inPorts s).blksz = true) →
      step s = .refused .reservedCommand ∨ step s = .refused .zeroBlockSize)

/-- The well-formedness check on syntax and the check acceptance makes are the same condition of R109. -/
def Obligations.WellFormedIsTheAcceptanceCheck : Prop :=
  ∀ (i : Instr) (blksz : BitVec 8), i.wellFormed blksz = blockSizeOk i blksz

/-- Words written out bit by bit from the fields of R101 decode to the commands of R115. -/
def Obligations.SampleWordsDecode : Prop :=
  decode 0b00_0_0_0010 = some .mixColumns ∧
  decode 0b00_0_1_0001 = some .invShiftRows ∧
  decode 0b01_0_0_0100 = some (.keySched .k192) ∧
  decode 0b00_0_1_0101 = some (.blockDec .k128) ∧
  decode 0b11_0_0_0110 = some (.ecbEnc .k3) ∧
  decode 0b10_0_1_0111 = some (.cbcDec .k256) ∧
  decode 0b00_1_1_0111 = some (.cbcDecUnpad .k128) ∧
  decode 0b00_0_0_1000 = some .pad ∧
  decode 0b00_0_1_0011 = none ∧
  decode 0b00_1_0_0101 = none ∧
  decode 0b01_0_0_1000 = none ∧
  decode 0b00_0_0_1001 = none

/-- A step with neither reset nor abort is the meaning of the command the edge belongs to: the one on the port of an idle
core, the one in `CMDR` of a running core. Around it the host's move is used up and the edge is counted. An edge that
belongs to no command, because the core is idle and none is offered, does that and nothing else (R300). -/
def Obligations.StepRunsTheDecodedCommand : Prop :=
  ∀ s : State, (inPorts s).rst = false → (inPorts s).abort = false →
    (∀ i : Instr,
      (s.top = .idle ∧ (inPorts s).cmdValid = true ∧ decode (inPorts s).cmd = some i ∨
        s.top = .run ∧ decode s.latch.cmdr = some i) →
      step s = match exec i s with
        | .next t => .next { t with env := { t.env with moves := t.env.moves.tail }, edges := t.edges + 1 }
        | .fault f => .fault f
        | .refused r => .refused r) ∧
    (s.top = .idle → (inPorts s).cmdValid = false →
      step s = .next { s with env := { s.env with moves := s.env.moves.tail }, edges := s.edges + 1 })

/-! ### Field arithmetic and tables -/

/-- R143 and R144: doubling as arithmetic on numbers, multiplication as a sum of doublings of one operand over the bits
of the other, and the examples. -/
def Obligations.DoublingAndMultiplicationAreTheFieldsOwn : Prop :=
  (∀ a : Byte, (xtime a).toNat = if a.toNat < 128 then 2 * a.toNat else (2 * a.toNat - 256) ^^^ 0x1B) ∧
  (∀ a b : Byte, gmul a b =
    (List.range 8).foldl (fun p i => if b.getLsbD i then p ^^^ Nat.repeat xtime i a else p) 0) ∧
  xtime 0x57 = 0xAE ∧ xtime 0xAE = 0x47 ∧ xtime 0x80 = 0x1B ∧ xtime 0xFF = 0xE5 ∧ xtime 0x00 = 0x00 ∧
  gmul 0x57 0x83 = 0xC1 ∧ gmul 0x57 0x13 = 0xFE ∧ gmul 0x53 0xCA = 0x01 ∧ gmul 0xFF 0xFF = 0x13 ∧
  ∀ a : Byte, gmul a 0 = 0 ∧ gmul 0 a = 0 ∧ gmul a 1 = a

/-- R145: the laws of the field, and multiplication by the MixColumns constants with `xtime` alone. -/
def Obligations.MultiplicationIsAField : Prop :=
  (∀ a b : Byte, gmul a b = gmul b a) ∧
  (∀ a b c : Byte, gmul (gmul a b) c = gmul a (gmul b c)) ∧
  (∀ a b c : Byte, gmul a (b ^^^ c) = gmul a b ^^^ gmul a c) ∧
  (∀ a : Byte, gmul 1 a = a) ∧
  (∀ a : Byte, a ≠ 0 → ∃ b, gmul a b = 1 ∧ ∀ c, gmul a c = 1 → c = b) ∧
  ∀ a : Byte,
    let a2 := xtime a
    let a4 := xtime a2
    let a8 := xtime a4
    gmul 2 a = xtime a ∧ gmul 3 a = xtime a ^^^ a ∧ gmul 9 a = a8 ^^^ a ∧ gmul 11 a = a8 ^^^ a2 ^^^ a ∧
      gmul 13 a = a8 ^^^ a4 ^^^ a ∧ gmul 14 a = a8 ^^^ a4 ^^^ a2

/-- R147 and R158: the two tables are inverse to each other, and `SBOX` is the field inverse followed by the affine map. -/
def Obligations.SboxTablesAreInverseAndAffine : Prop :=
  (∀ a : Byte, invSbox (sbox a) = a ∧ sbox (invSbox a) = a) ∧ invSbox 0xed = 0x53 ∧
  ∀ a b : Byte, (a = 0 ∧ b = 0 ∨ gmul a b = 1) →
    sbox a = b ^^^ b.rotateLeft 1 ^^^ b.rotateLeft 2 ^^^ b.rotateLeft 3 ^^^ b.rotateLeft 4 ^^^ 0x63

/-! ### The round primitives -/

/-- R148, R149: SUBBYTES and INVSUBBYTES. -/
def Obligations.SubBytesSubstitutesEveryByte : Prop :=
  encode .subBytes = 0x00 ∧ primitiveWord .subBytes = 0b000 ∧
  computesBlock .subBytes (fun x _ => Vector.ofFn fun i => sbox x[i]) ∧
  (∀ (x : Block) (i : Fin 16), (subBytes x)[i] ≠ x[i]) ∧
  (∀ (x : Block) (i j : Fin 16), x[i] = x[j] → (subBytes x)[i] = (subBytes x)[j]) ∧
  subBytes (blockOfPort 0x000102030405060708090a0b0c0d0e0f) = blockOfPort 0x637c777bf26b6fc53001672bfed7ab76 ∧
  encode .invSubBytes = 0x10 ∧ primitiveWord .invSubBytes = 0b100 ∧
  computesBlock .invSubBytes (fun x _ => Vector.ofFn fun i => invSbox x[i]) ∧
  (∀ x : Block, invSubBytes (subBytes x) = x ∧ subBytes (invSubBytes x) = x) ∧
  invSubBytes (blockOfPort 0x000102030405060708090a0b0c0d0e0f) = blockOfPort 0x52096ad53036a538bf40a39e81f3d7fb

/-- R150, R151: SHIFTROWS and INVSHIFTROWS, as a rotation of each row and as the written-out permutations. -/
def Obligations.ShiftRowsRotatesEveryRow : Prop :=
  encode .shiftRows = 0x01 ∧ primitiveWord .shiftRows = 0b001 ∧
  computesBlock .shiftRows (fun x _ => shiftRows x) ∧
  (∀ (x : Block) (r c : Nat), r < 4 → c < 4 → readAt (shiftRows x) (r + 4 * c) = readAt x (r + 4 * ((c + r) % 4))) ∧
  (∀ (x : Block) (i : Fin 16), (shiftRows x)[i] =
    readAt x ([0, 5, 10, 15, 4, 9, 14, 3, 8, 13, 2, 7, 12, 1, 6, 11].getD i.val 0)) ∧
  (∀ (x : Block) (c : Nat), c < 4 → readAt (shiftRows x) (2 + 4 * c) = readAt (invShiftRows x) (2 + 4 * c)) ∧
  (∀ x : Block, (∀ i < 16, readAt x i = readAt x (i % 4)) → shiftRows x = x) ∧
  shiftRows (blockOfPort 0x000102030405060708090a0b0c0d0e0f) = blockOfPort 0x00050a0f04090e03080d02070c01060b ∧
  encode .invShiftRows = 0x11 ∧ primitiveWord .invShiftRows = 0b101 ∧
  computesBlock .invShiftRows (fun x _ => invShiftRows x) ∧
  (∀ (x : Block) (r c : Nat), r < 4 → c < 4 →
    readAt (invShiftRows x) (r + 4 * c) = readAt x (r + 4 * ((c + 4 - r) % 4))) ∧
  (∀ (x : Block) (i : Fin 16), (invShiftRows x)[i] =
    readAt x ([0, 13, 10, 7, 4, 1, 14, 11, 8, 5, 2, 15, 12, 9, 6, 3].getD i.val 0)) ∧
  (∀ x : Block, invShiftRows (shiftRows x) = x ∧ shiftRows (invShiftRows x) = x) ∧
  invShiftRows (blockOfPort 0x000102030405060708090a0b0c0d0e0f) = blockOfPort 0x000d0a0704010e0b0805020f0c090603

/-- R152, R153: MIXCOLUMNS and INVMIXCOLUMNS as a product with the matrix whose rows are the first row rotated right. -/
def Obligations.MixColumnsMultipliesEveryColumn : Prop :=
  encode .mixColumns = 0x02 ∧ primitiveWord .mixColumns = 0b010 ∧
  computesBlock .mixColumns (fun x _ => mixColumns x) ∧
  (∀ (x : Block) (r c : Nat), r < 4 → c < 4 → readAt (mixColumns x) (r + 4 * c) =
    (List.range 4).foldl
      (fun acc k => acc ^^^ gmul (([2, 3, 1, 1] : List Byte).getD ((k + 4 - r) % 4) 0) (readAt x (k + 4 * c))) 0) ∧
  (∀ (x : Block) (c : Nat), c < 4 → (∀ r < 4, readAt x (r + 4 * c) = readAt x (4 * c)) →
    ∀ r < 4, readAt (mixColumns x) (r + 4 * c) = readAt x (r + 4 * c)) ∧
  mixColumns (blockOfPort 0xdb135345f20a225c01010101c6c6c6c6) = blockOfPort 0x8e4da1bc9fdc589d01010101c6c6c6c6 ∧
  mixColumns (blockOfPort 0xd4d4d4d52d26314c0100000000000000) = blockOfPort 0xd5d5d7d64d7ebdf80201010300000000 ∧
  mixColumns (blockOfPort 0x000102030405060708090a0b0c0d0e0f) = blockOfPort 0x02070005060304010a0f080d0e0b0c09 ∧
  encode .invMixColumns = 0x12 ∧ primitiveWord .invMixColumns = 0b110 ∧
  computesBlock .invMixColumns (fun x _ => invMixColumns x) ∧
  (∀ (x : Block) (r c : Nat), r < 4 → c < 4 → readAt (invMixColumns x) (r + 4 * c) =
    (List.range 4).foldl
      (fun acc k => acc ^^^ gmul (([14, 11, 13, 9] : List Byte).getD ((k + 4 - r) % 4) 0) (readAt x (k + 4 * c))) 0) ∧
  (∀ (x : Block) (c : Nat), c < 4 → (∀ r < 4, readAt x (r + 4 * c) = readAt x (4 * c)) →
    ∀ r < 4, readAt (invMixColumns x) (r + 4 * c) = readAt x (r + 4 * c)) ∧
  (∀ x : Block, invMixColumns (mixColumns x) = x ∧ mixColumns (invMixColumns x) = x) ∧
  invMixColumns (blockOfPort 0x8e4da1bc01000000db13534500000000) = blockOfPort 0xdb1353450e090d0b32a41d5500000000 ∧
  invMixColumns (blockOfPort 0x000102030405060708090a0b0c0d0e0f) = blockOfPort 0x0a0f080d0e0b0c090207000506030401

/-- R154: ADDROUNDKEY, with `KEY` unexpanded as the round key. -/
def Obligations.AddRoundKeyXorsTheLatchedKey : Prop :=
  encode .addRoundKey = 0x03 ∧ primitiveWord .addRoundKey = 0b011 ∧ decode 0x13 = none ∧
  computesBlock .addRoundKey (fun x k => Vector.ofFn fun i => x[i] ^^^ k[i]) ∧
  (∀ x k : Block, addRoundKey (addRoundKey x k) k = x) ∧
  (∀ x : Block, addRoundKey x zeroBlock = x ∧ addRoundKey x x = zeroBlock) ∧
  addRoundKey (blockOfPort 0x000102030405060708090a0b0c0d0e0f) (blockOfPort 0xffffffffffffffffffffffffffffffff) =
    blockOfPort 0xfffefdfcfbfaf9f8f7f6f5f4f3f2f1f0

/-- R141: a primitive command in ONESHOT: its compute step, its sixteen bytes in index order, its terminal. Nothing else in
the state changes: the input stream is not read, and no error can end the command. -/
def Obligations.PrimitiveCommandsRunInOneshot : Prop :=
  computesBlock .subBytes (fun x _ => subBytes x) ∧ computesBlock .invSubBytes (fun x _ => invSubBytes x) ∧
  computesBlock .shiftRows (fun x _ => shiftRows x) ∧ computesBlock .invShiftRows (fun x _ => invShiftRows x) ∧
  computesBlock .mixColumns (fun x _ => mixColumns x) ∧ computesBlock .invMixColumns (fun x _ => invMixColumns x) ∧
  computesBlock .addRoundKey (fun x k => addRoundKey x k) ∧
  ∀ i ∈ primitiveCommands, sendsBlock i

/-- R155: each primitive undoes its inverse, and the byte maps commute with the row rotations. -/
def Obligations.PrimitivesUndoTheirInverses : Prop :=
  ∀ x k : Block,
    invSubBytes (subBytes x) = x ∧ subBytes (invSubBytes x) = x ∧
    invShiftRows (shiftRows x) = x ∧ shiftRows (invShiftRows x) = x ∧
    invMixColumns (mixColumns x) = x ∧ mixColumns (invMixColumns x) = x ∧
    addRoundKey (addRoundKey x k) k = x ∧
    subBytes (shiftRows x) = shiftRows (subBytes x) ∧
    invSubBytes (invShiftRows x) = invShiftRows (invSubBytes x)

/-- R156: bytes, columns and rows are independent lanes. -/
def Obligations.PrimitivesActOnTheirLanes : Prop :=
  (∀ (x y : Block) (i : Fin 16), x[i] = y[i] →
    (subBytes x)[i] = (subBytes y)[i] ∧ (invSubBytes x)[i] = (invSubBytes y)[i] ∧
      ∀ k l : Block, k[i] = l[i] → (addRoundKey x k)[i] = (addRoundKey y l)[i]) ∧
  (∀ (x y : Block) (c : Nat), c < 4 → (∀ j < 4, readAt x (4 * c + j) = readAt y (4 * c + j)) →
    ∀ j < 4, readAt (mixColumns x) (4 * c + j) = readAt (mixColumns y) (4 * c + j) ∧
      readAt (invMixColumns x) (4 * c + j) = readAt (invMixColumns y) (4 * c + j)) ∧
  ∀ (x : Block) (r : Nat), r < 4 → ∃ n m, ∀ c < 4,
    readAt (shiftRows x) (r + 4 * c) = readAt x (r + 4 * ((c + n) % 4)) ∧
      readAt (invShiftRows x) (r + 4 * c) = readAt x (r + 4 * ((c + m) % 4))

/-! ### The key schedule -/

/-- R181, R182: RotWord and SubWord on the bytes of a word, as shifts and with their examples. -/
def Obligations.ScheduleBuildingBlocks : Prop :=
  (∀ b0 b1 b2 b3 : Byte, rotWord (b0 ++ b1 ++ b2 ++ b3) = b1 ++ b2 ++ b3 ++ b0) ∧
  (∀ b0 b1 b2 b3 : Byte, subWord (b0 ++ b1 ++ b2 ++ b3) = sbox b0 ++ sbox b1 ++ sbox b2 ++ sbox b3) ∧
  rotWord 0x67204675 = 0x20467567 ∧ subWord 0x20467567 = 0xB75A9D85

/-- R188, R183 (which the spec derives from R184 and R143): a valid schedule is the key followed by the 44-word recurrence,
with the ten round constants in the most significant byte, whatever the expander registers held before. -/
def Obligations.ScheduleFollowsTheRecurrence : Prop :=
  (∀ rc : Byte, rcWord rc = rc ++ (0 : BitVec 24)) ∧
  (List.range 10).map (fun n => Nat.repeat xtime n Config.rcInit) =
    [0x01, 0x02, 0x04, 0x08, 0x10, 0x20, 0x40, 0x80, 0x1B, 0x36] ∧
  ∀ (key : Block) (r : ScheduleRegs),
    let e := keyExpand .k128 key r
    let word := fun n : Nat => wordOfBlock (roundKeyAt e.rk (n / 4)) (Fin.ofNat 4 n)
    e.rkn = 11 ∧ roundKeyAt e.rk 0 = key ∧
    (∀ n, 4 ≤ n → n < 44 → n % 4 ≠ 0 → word n = word (n - 4) ^^^ word (n - 1)) ∧
    (∀ n, 4 ≤ n → n < 44 → n % 4 = 0 →
      word n = word (n - 4) ^^^ subWord (rotWord (word (n - 1))) ^^^ rcWord (Nat.repeat xtime (n / 4 - 1) Config.rcInit)) ∧
    e.rk = scheduleOf key

/-- R186: the other key sizes give the empty schedule, and nothing but `RKN` is written; a 128-bit key always gives eleven
round keys. -/
def Obligations.OtherKeySizesGiveTheEmptySchedule : Prop :=
  ∀ (k : KeySize) (key : Block) (r : ScheduleRegs),
    (k ≠ .k128 → keyExpand k key r = { r with rkn := 0 }) ∧ (k = .k128 → (keyExpand k key r).rkn = 11)

/-- R187: KEYSCHED, its compute step, its sends and its terminal, edge by edge; the key is round key 0, the zero key gives
a schedule that is not zero, and the example's round keys. Nothing else in the state changes: the input stream is not
read. -/
def Obligations.KeySchedSendsTheRoundKeysInOrder : Prop :=
  (∀ k : KeySize, encode (.keySched k) = 0x04 + 0x40 * (encodeKeySize k).zeroExtend 8) ∧
  (∀ (k : KeySize) (s : State), s.top = .run → s.one.ost = .compute → (currentMove s).go = true →
    exec (.keySched k) s =
      .next { s with one := { oi := 0, oj := 0, ost := if s.sched.rkn = 0 then .term .eos else .emit } }) ∧
  (∀ (k : KeySize) (s : State), s.top = .run → s.one.ost = .emit → s.sched.rkn = 11 → s.one.oi < 11 → s.one.oj < 16 →
    exec (.keySched k) s =
      if (inPorts s).outReady = true then
        .next { s with
          one := if s.one.oj = 15 then
              { oi := s.one.oi + 1, oj := 0, ost := if s.one.oi = 10 then .term .eos else .emit }
            else { s.one with oj := s.one.oj + 1 },
          env := { s.env with
            taken := s.env.taken ++ [.data (readAt (roundKeyAt s.sched.rk s.one.oi.toNat) s.one.oj.toNat)] } }
      else .next s) ∧
  (∀ (k : KeySize) (s : State) (t : Terminal), s.top = .run → s.one.ost = .term t →
    exec (.keySched k) s =
      if (inPorts s).outTermReady = true then
        .next { s with top := .idle, one.ost := .done, env := { s.env with taken := s.env.taken ++ [.term t] } }
      else .next s) ∧
  (∀ key : Block, roundKeyAt (scheduleOf key) 0 = key) ∧
  scheduleOf zeroBlock ≠ Vector.replicate 11 zeroBlock ∧
  roundKeyAt (scheduleOf (blockOfPort 0x5468617473206d79204b756e67204675)) 1 =
    blockOfPort 0xe232fcf191129188b159e4e6d679a293 ∧
  roundKeyAt (scheduleOf (blockOfPort 0x5468617473206d79204b756e67204675)) 10 =
    blockOfPort 0x28fddef86da4244accc0a4fe3b316f26

/-! ### The block core -/

/-- R204: the forward table, line by line, and its 40 primitives as the function `Encrypt`. -/
def Obligations.ForwardSequencerComputesEncrypt : Prop :=
  forwardLine 0 .ark0 = some ⟨.addRoundKey, 0, 1, .sub⟩ ∧
  (∀ i : BitVec 4, 1 ≤ i → i ≤ 10 →
    forwardLine i .sub = some ⟨.subBytes, 0, i, .shift⟩ ∧
    forwardLine i .shift = some ⟨.shiftRows, 0, i, if i < 10 then .mix else .ark⟩ ∧
    (i < 10 → forwardLine i .mix = some ⟨.mixColumns, 0, i, .ark⟩) ∧
    forwardLine i .ark = some (if i < 10 then ⟨.addRoundKey, i.toNat, i + 1, .sub⟩ else ⟨.addRoundKey, i.toNat, i, .done⟩)) ∧
  forwardLine 10 .done = none ∧
  ∀ (rk : RoundKeys) (x : Block), seqRun .fwd rk x = { sreg := encrypt rk x, rnd := 10, ph := .done }

/-- R205: the inverse table, line by line, and its 40 primitives as the function `Decrypt`. -/
def Obligations.InverseSequencerComputesDecrypt : Prop :=
  inverseLine 0 .ark0 = some ⟨.addRoundKey, 10, 1, .shift⟩ ∧
  (∀ j : BitVec 4, 1 ≤ j → j ≤ 10 →
    inverseLine j .shift = some ⟨.invShiftRows, 0, j, .sub⟩ ∧
    inverseLine j .sub = some ⟨.invSubBytes, 0, j, .ark⟩ ∧
    inverseLine j .ark = some ⟨.addRoundKey, 10 - j.toNat, j, if j < 10 then .mix else .done⟩ ∧
    (j < 10 → inverseLine j .mix = some ⟨.invMixColumns, 0, j + 1, .shift⟩)) ∧
  inverseLine 10 .done = none ∧
  ∀ (rk : RoundKeys) (x : Block), seqRun .inv rk x = { sreg := decrypt rk x, rnd := 10, ph := .done }

/-- R209: for a fixed schedule, decrypting undoes encrypting and the other way round. -/
def Obligations.DecryptAndEncryptUndoEachOther : Prop :=
  ∀ (rk : RoundKeys) (x : Block), decrypt rk (encrypt rk x) = x ∧ encrypt rk (decrypt rk x) = x

/-- R206, with the check of R203: BLOCK.ENC and BLOCK.DEC in ONESHOT, edge by edge. Nothing else in the state changes: the
input stream is not read. -/
def Obligations.BlockCommandsRunInOneshot : Prop :=
  ∀ k : KeySize,
    (∀ s : State, s.top = .run → s.one.ost = .compute → (currentMove s).go = true →
      exec (.blockEnc k) s =
        (if s.sched.rkn = 11 then
          .next { s with core := { sreg := encrypt s.sched.rk s.latch.blk, rnd := 10, ph := .done },
                         one.oj := 0, one.ost := .emit }
         else .next { s with one.ost := .term (.fail .ise) }) ∧
      exec (.blockDec k) s =
        (if s.sched.rkn = 11 then
          .next { s with core := { sreg := decrypt s.sched.rk s.latch.blk, rnd := 10, ph := .done },
                         one.oj := 0, one.ost := .emit }
         else .next { s with one.ost := .term (.fail .ise) })) ∧
    sendsBlock (.blockEnc k) ∧ sendsBlock (.blockDec k)

/-! ### The chaining engine -/

/-- R233 `E_FILL`, R236, R241: what an arriving byte, a clean end and a failed source do, for the four commands in which
ENGINE runs alone. -/
def Obligations.EngineGathersSixteenBytes : Prop :=
  ∀ (m : ChainMode) (k : KeySize) (s : State), s.top = .run → s.eng.est = .fill → s.eng.icnt < 16 →
    exec (chainCommand m k) s =
      match arrivingItem s with
      | none => .next s
      | some (.data b) =>
        .next (hostSent (.data b) { s with
          eng.ibuf := s.eng.ibuf.setIfInBounds s.eng.icnt.toNat b,
          eng.icnt := s.eng.icnt + 1,
          eng.est := if s.eng.icnt = 15 then .xform else .fill })
      | some (.term .eos) =>
        .next (hostSent (.term .eos) { s with eng.est := if s.eng.icnt = 0 then .term .eos else .term (.fail .lce) })
      | some (.term (.fail e)) => .next (hostSent (.term (.fail e)) { s with eng.est := .term (.fail e) })

/-- R233 `E_XFORM`, R234, R235: the four block steps, and the empty schedule. -/
def Obligations.EngineTransformsOneBlock : Prop :=
  ∀ (m : ChainMode) (k : KeySize) (s : State), s.top = .run → s.eng.est = .xform → (currentMove s).go = true →
    exec (chainCommand m k) s =
      if s.sched.rkn = 11 then
        .next { s with
          core := { sreg := coreResult m s.sched.rk s.eng.ibuf s.eng.fb, rnd := 10, ph := .done },
          eng := { ibuf := s.eng.ibuf, icnt := 0, obuf := blockStepOutput m s.sched.rk s.eng.ibuf s.eng.fb, ocnt := 0,
                   fb := blockStepFeedback m s.sched.rk s.eng.ibuf s.eng.fb, est := .drain } }
      else .next { s with eng.est := .term (.fail .ise) }

/-- R233 `E_DRAIN` and `E_TERM`, R242: sending the block, the terminal, and nothing after it. -/
def Obligations.EngineDrainsThenFillsAgain : Prop :=
  ∀ (m : ChainMode) (k : KeySize) (s : State), s.top = .run →
    (s.eng.est = .drain → s.eng.ocnt < 16 →
      exec (chainCommand m k) s =
        if (inPorts s).outReady = true then
          .next { s with
            eng.ocnt := s.eng.ocnt + 1, eng.est := if s.eng.ocnt = 15 then .fill else .drain,
            env := { s.env with taken := s.env.taken ++ [.data (readAt s.eng.obuf s.eng.ocnt.toNat)] } }
        else .next s) ∧
    (∀ t : Terminal, s.eng.est = .term t →
      exec (chainCommand m k) s =
        if (inPorts s).outTermReady = true then
          .next { s with top := .idle, eng.est := .done, env := { s.env with taken := s.env.taken ++ [.term t] } }
        else .next s) ∧
    (s.eng.est = .done → exec (chainCommand m k) s = .next s)

/-! ### Padding -/

/-- R262 and R265: PAD alone, edge by edge. -/
def Obligations.PadFollowsItsControlTable : Prop :=
  ∀ s : State, s.top = .run →
    (s.pad.pst = .fill → s.pad.pcnt < s.latch.bsz →
      exec .pad s =
        match arrivingItem s with
        | none => .next s
        | some (.data b) =>
          .next (hostSent (.data b) { s with pad :=
            if s.pad.pcnt + 1 = s.latch.bsz then
              { s.pad with pbuf := s.pad.pbuf.setIfInBounds s.pad.pcnt.toNat b, pcnt := s.pad.pcnt + 1, pout := 0,
                           pst := .flush }
            else { s.pad with pbuf := s.pad.pbuf.setIfInBounds s.pad.pcnt.toNat b, pcnt := s.pad.pcnt + 1 } })
        | some (.term .eos) =>
          .next (hostSent (.term .eos) { s with pad :=
            { pbuf := Vector.ofFn fun i => if s.pad.pcnt.toNat ≤ i.val ∧ i.val < s.latch.bsz.toNat then
                s.latch.bsz - s.pad.pcnt else s.pad.pbuf[i],
              pcnt := s.latch.bsz, pout := 0, plast := true, pst := .flush } })
        | some (.term (.fail e)) => .next (hostSent (.term (.fail e)) { s with pad.pst := .term (.fail e) })) ∧
    (s.pad.pst = .flush → s.pad.pout < s.latch.bsz →
      exec .pad s =
        if (inPorts s).outReady = true then
          .next { s with
            pad := if s.pad.pout + 1 = s.latch.bsz then
                (if s.pad.plast = true then { s.pad with pout := s.pad.pout + 1, pst := .term .eos }
                 else { s.pad with pout := s.pad.pout + 1, pcnt := 0, pst := .fill })
              else { s.pad with pout := s.pad.pout + 1 },
            env := { s.env with taken := s.env.taken ++ [.data (readAt s.pad.pbuf s.pad.pout.toNat)] } }
        else .next s) ∧
    (∀ t : Terminal, s.pad.pst = .term t →
      exec .pad s =
        if (inPorts s).outTermReady = true then
          .next { s with top := .idle, pad.pst := .done, env := { s.env with taken := s.env.taken ++ [.term t] } }
        else .next s) ∧
    (s.pad.pst = .done → exec .pad s = .next s)

/-- R270 and R272: UNPAD alone, edge by edge. The padding is valid when the last byte `n` is in 1..`BSZ` and the last `n`
bytes of the block are all `n`. -/
def Obligations.UnpadFollowsItsControlTable : Prop :=
  ∀ s : State, s.top = .run →
    (s.unp.ust = .fill → s.unp.ucnt ≤ s.latch.bsz →
      (arrivingItem s = none → exec .unpad s = .next s) ∧
      (∀ b : Byte, arrivingItem s = some (.data b) →
        exec .unpad s = .next (hostSent (.data b) { s with unp :=
          if s.unp.ucnt < s.latch.bsz then
            { s.unp with ubuf := s.unp.ubuf.setIfInBounds s.unp.ucnt.toNat b, ucnt := s.unp.ucnt + 1 }
          else { s.unp with upend := b, uhave := true, ulim := s.latch.bsz, uout := 0, ust := .flush } })) ∧
      (∀ e : Err, arrivingItem s = some (.term (.fail e)) →
        exec .unpad s = .next (hostSent (.term (.fail e)) { s with unp.ust := .term (.fail e) })) ∧
      (arrivingItem s = some (.term .eos) →
        let n := readAt s.unp.ubuf (s.latch.bsz.toNat - 1)
        let valid := n ≠ 0 ∧ n ≤ s.latch.bsz ∧
          ∀ i, s.latch.bsz.toNat - n.toNat ≤ i → i < s.latch.bsz.toNat → readAt s.unp.ubuf i = n
        (s.unp.ucnt = 0 →
          exec .unpad s = .next (hostSent (.term .eos) { s with unp.ust := .term (.fail .pae) })) ∧
        (s.unp.ucnt ≠ 0 → s.unp.ucnt < s.latch.bsz →
          exec .unpad s = .next (hostSent (.term .eos) { s with unp.ust := .term (.fail .lce) })) ∧
        (s.unp.ucnt ≠ 0 → s.unp.ucnt = s.latch.bsz → ¬valid →
          exec .unpad s = .next (hostSent (.term .eos) { s with unp.ust := .term (.fail .pae) })) ∧
        (s.unp.ucnt ≠ 0 → s.unp.ucnt = s.latch.bsz → valid →
          exec .unpad s = .next (hostSent (.term .eos) { s with unp :=
            { s.unp with ulim := s.latch.bsz - n, ulast := true, uout := 0,
                         ust := if n = s.latch.bsz then .term .eos else .flush } })))) ∧
    (s.unp.ust = .flush → s.unp.uout < s.unp.ulim → s.unp.ulim ≤ s.latch.bsz →
      exec .unpad s =
        if (inPorts s).outReady = true then
          .next { s with
            unp := if s.unp.uout + 1 = s.unp.ulim then
                (if s.unp.ulast = true then { s.unp with uout := s.unp.uout + 1, ust := .term .eos }
                 else { s.unp with uout := s.unp.uout + 1, ubuf := s.unp.ubuf.setIfInBounds 0 s.unp.upend, ucnt := 1,
                                   uhave := false, ust := .fill })
              else { s.unp with uout := s.unp.uout + 1 },
            env := { s.env with taken := s.env.taken ++ [.data (readAt s.unp.ubuf s.unp.uout.toNat)] } }
        else .next s) ∧
    (∀ t : Terminal, s.unp.ust = .term t →
      exec .unpad s =
        if (inPorts s).outTermReady = true then
          .next { s with top := .idle, unp.ust := .done, env := { s.env with taken := s.env.taken ++ [.term t] } }
        else .next s) ∧
    (s.unp.ust = .done → exec .unpad s = .next s)

/-! ### Padded pipelines -/

/-- R279, R294: a transfer on `CH_A` moves PAD's item into ENGINE in one step, for ECB.ENC.PAD and CBC.ENC.PAD. -/
def Obligations.PadHandsItsItemsToTheEngine : Prop :=
  ∀ (m : ChainMode) (k : KeySize) (s : State), encrypts m = true → s.top = .run → (currentMove s).go = true →
    s.eng.est = .fill → s.eng.icnt < 16 →
    (s.pad.pst = .flush → s.pad.pout < s.latch.bsz →
      exec (paddedCommand m k) s = .next { s with
        eng.ibuf := s.eng.ibuf.setIfInBounds s.eng.icnt.toNat (readAt s.pad.pbuf s.pad.pout.toNat),
        eng.icnt := s.eng.icnt + 1,
        eng.est := if s.eng.icnt = 15 then .xform else .fill,
        pad := if s.pad.pout + 1 = s.latch.bsz then
            (if s.pad.plast = true then { s.pad with pout := s.pad.pout + 1, pst := .term .eos }
             else { s.pad with pout := s.pad.pout + 1, pcnt := 0, pst := .fill })
          else { s.pad with pout := s.pad.pout + 1 } }) ∧
    (s.pad.pst = .term .eos →
      exec (paddedCommand m k) s = .next { s with
        eng.est := if s.eng.icnt = 0 then .term .eos else .term (.fail .lce), pad.pst := .done }) ∧
    (∀ e : Err, s.pad.pst = .term (.fail e) →
      exec (paddedCommand m k) s = .next { s with eng.est := .term (.fail e), pad.pst := .done })

/-- R279, R294: a transfer on `CH_B` moves ENGINE's item into UNPAD in one step, for ECB.DEC.UNPAD and CBC.DEC.UNPAD. UNPAD
does with it what it does with the same item from the host, and passes an error on with the same code. -/
def Obligations.EngineHandsItsItemsToUnpad : Prop :=
  ∀ (m : ChainMode) (k : KeySize) (s : State), encrypts m = false → s.top = .run → (currentMove s).go = true →
    s.unp.ust = .fill → s.unp.ucnt ≤ s.latch.bsz →
    (s.eng.est = .drain → s.eng.ocnt < 16 →
      exec (paddedCommand m k) s = .next { s with
        eng.ocnt := s.eng.ocnt + 1, eng.est := if s.eng.ocnt = 15 then .fill else .drain,
        unp := if s.unp.ucnt < s.latch.bsz then
            { s.unp with ubuf := s.unp.ubuf.setIfInBounds s.unp.ucnt.toNat (readAt s.eng.obuf s.eng.ocnt.toNat),
                         ucnt := s.unp.ucnt + 1 }
          else { s.unp with upend := readAt s.eng.obuf s.eng.ocnt.toNat, uhave := true, ulim := s.latch.bsz, uout := 0,
                            ust := .flush } }) ∧
    (s.eng.est = .term .eos →
      exec (paddedCommand m k) s = .next { unpadEnd s with eng.est := .done }) ∧
    (∀ e : Err, s.eng.est = .term (.fail e) →
      exec (paddedCommand m k) s = .next { s with eng.est := .done, unp.ust := .term (.fail e) })

/-- R279: at an edge with nothing on the internal channel pair, a padded pipeline does what the one unit that acts would do
alone. -/
def Obligations.PipelineUnitsActAsTheyDoAlone : Prop :=
  ∀ (m : ChainMode) (k : KeySize) (s : State), s.top = .run →
    (encrypts m = true → padInBounds s = true → engineInBounds s = true →
      (s.pad.pst = .fill → s.eng.est = .fill → exec (paddedCommand m k) s = exec .pad s) ∧
      (s.eng.est ≠ .fill → (s.pad.pst ≠ .fill ∨ arrivingItem s = none) →
        exec (paddedCommand m k) s = exec (chainCommand m k) s)) ∧
    (encrypts m = false → engineInBounds s = true → unpadInBounds s = true →
      (s.unp.ust = .fill → (s.eng.est = .fill ∨ s.eng.est = .xform) →
        exec (paddedCommand m k) s = exec (chainCommand m k) s) ∧
      (s.unp.ust ≠ .fill → (s.eng.est ≠ .fill ∨ arrivingItem s = none) → s.eng.est ≠ .xform →
        exec (paddedCommand m k) s = exec .unpad s))

/-! ### Acceptance -/

/-- R108: everything acceptance does, by the fields of the command word, and when an edge is an acceptance; for every
command. What the host does at acceptance (`hostAccepted`) is the model's (logs 6 and 8). -/
def Obligations.AcceptanceDoesAllItsWritesAtOnce : Prop :=
  ∀ (i : Instr) (s : State), s.top = .idle → blockSizeOk i (inPorts s).blksz = true →
    let p := inPorts s
    let op := (opField (encode i)).toNat
    let dir := dirField (encode i)
    let paden := padenField (encode i)
    exec i s = .next { s with
      top := .run,
      latch := { cmdr := encode i, key := blockOfPort p.key, ivr := blockOfPort p.iv, blk := blockOfPort p.blk,
                 bsz := p.blksz },
      sched := if op ∈ [4, 5, 6, 7] then keyExpand (decodeKeySize (kszField (encode i))) (blockOfPort p.key) s.sched
        else { s.sched with rkn := 0 },
      one := { s.one with ost := if op ≤ 5 then .compute else .idle },
      pad := if dir = 0 ∧ (paden = 1 ∨ op = 8) then { s.pad with pst := .fill, pcnt := 0, plast := false }
        else { s.pad with pst := .idle },
      eng := if op ∈ [6, 7] then
          { s.eng with est := .fill, icnt := 0, fb := if op = 7 then blockOfPort p.iv else s.eng.fb }
        else { s.eng with est := .idle },
      unp := if dir = 1 ∧ (paden = 1 ∨ op = 8) then
          { s.unp with ust := .fill, ucnt := 0, uhave := false, ulast := false }
        else { s.unp with ust := .idle },
      env := (hostAccepted s).env } ∧
    ((inPorts s).rst = false → (inPorts s).abort = false → (inPorts s).cmdValid = true → decode (inPorts s).cmd = some i →
      (outPorts s).cmdReady = true ∧ encode i = (inPorts s).cmd ∧
      ∃ t, exec i s = .next t ∧
        step s = .next { t with env := { t.env with moves := t.env.moves.tail }, edges := t.edges + 1 })

/-- R116: the operands are the bytes of the ports, byte 0 most significant. -/
def Obligations.OperandsAreTheBytesOfThePorts : Prop :=
  ∀ (i : Instr) (s t : State), s.top = .idle → exec i s = .next t →
    t.latch.bsz = s.env.job.blksz ∧
    ∀ j : Fin 16,
      t.latch.key[j] = s.env.job.key.extractLsb' (120 - 8 * j.val) 8 ∧
      t.latch.ivr[j] = s.env.job.iv.extractLsb' (120 - 8 * j.val) 8 ∧
      t.latch.blk[j] = s.env.job.blk.extractLsb' (120 - 8 * j.val) 8

/-- 93_implementation_defined.md U2, R267: with `blksz` = 0 the six commands that use PAD or UNPAD are refused. -/
def Obligations.ZeroBlockSizeIsRefused : Prop :=
  ∀ (k : KeySize) (s : State), s.top = .idle → (inPorts s).blksz = 0 →
    ∀ i ∈ [.pad, .unpad, .ecbEncPad k, .ecbDecUnpad k, .cbcEncPad k, .cbcDecUnpad k], exec i s = .refused .zeroBlockSize

/-! ### Reset, abort, ports -/

/-- R390: an edge with `rst` = 1 writes `TOP`, the control states and `RKN`, whatever else stands at the ports, and
leaves every other register. "Takes no input and offers no output" is read as log 16 says: nothing is transferred at the
edge, and the state after it offers and receives nothing (R392). -/
def Obligations.ResetEdgeIdlesTheCore : Prop :=
  ∀ s : State, (inPorts s).rst = true →
    step s = .next { s with
      top := .idle, one.ost := .idle, pad.pst := .idle, eng.est := .idle, unp.ust := .idle, sched.rkn := 0,
      env := { s.env with moves := s.env.moves.tail }, edges := s.edges + 1 } ∧
    ∀ t : State, step s = .next t → (outPorts t).outValid = false ∧ (outPorts t).outTermValid = false ∧
      (outPorts t).inReady = false ∧ (outPorts t).inTermReady = false ∧ (outPorts t).busy = false

/-- R356: an edge with `abort` = 1 and `rst` = 0 idles a running core, with no transfer and no terminal, and every offer of
the core is withdrawn; to an idle core it does nothing. -/
def Obligations.AbortEdgeDropsTheCommand : Prop :=
  ∀ s : State, (inPorts s).rst = false → (inPorts s).abort = true →
    (s.top = .run → step s = .next { s with
      top := .idle, one.ost := .idle, pad.pst := .idle, eng.est := .idle, unp.ust := .idle,
      env := { s.env with moves := s.env.moves.tail }, edges := s.edges + 1 }) ∧
    (s.top = .idle → step s = .next { s with
      env := { s.env with moves := s.env.moves.tail }, edges := s.edges + 1 }) ∧
    ∀ t : State, step s = .next t → (outPorts t).outValid = false ∧ (outPorts t).outTermValid = false ∧
      (outPorts t).inReady = false ∧ (outPorts t).inTermReady = false ∧ (outPorts t).cmdReady = true

/-- R392: the output wires after reset, with whatever the two wires that have no value show. -/
def Obligations.OutputsAfterResetAreQuiet : Prop :=
  State.reset.top = .idle ∧ State.reset.sched.rkn = 0 ∧ (∀ w, workerIdle w State.reset = true) ∧
  (outPorts State.reset).busy = false ∧ (outPorts State.reset).cmdReady = true ∧
  (outPorts State.reset).inReady = false ∧ (outPorts State.reset).inTermReady = false ∧
  (outPorts State.reset).outValid = false ∧ (outPorts State.reset).outTermValid = false

/-- R110: the output wires as functions of the state, while neither `rst` nor `abort` is asserted. What they show while one
is: `OutputWiresDoNotReadTheInputWires`. -/
def Obligations.OutputWiresFollowTheState : Prop :=
  ∀ s : State, (inPorts s).rst = false → (inPorts s).abort = false →
    ((outPorts s).busy = decide (s.top = .run) ∧ (outPorts s).cmdReady = decide (s.top = .idle) ∧
      (outPorts s).inTermReady = (outPorts s).inReady ∧
      ¬((outPorts s).outValid = true ∧ (outPorts s).outTermValid = true)) ∧
    (s.top = .idle → (outPorts s).inReady = false ∧ (outPorts s).outValid = false ∧ (outPorts s).outTermValid = false) ∧
    ∀ (i : Instr) (first last : Worker), s.top = .run → decode s.latch.cmdr = some i →
      (workersOf i).head? = some first → (workersOf i).getLast? = some last →
      (outPorts s).inReady = workerFilling first s ∧
      (outPorts s).outValid = workerSending last s ∧
      (outPorts s).outTermValid = (workerTerminal last s).isSome ∧
      (workerSending last s = true → (outPorts s).outData = byteInFlight i last s) ∧
      ∀ t, workerTerminal last s = some t → (outPorts s).outTermCode = terminalCode t

/-- The output wires read none of the input wires: at an edge with `rst` or `abort` they show what the state gives them, as
at any other. The model's reading (log 16). -/
def Obligations.OutputWiresDoNotReadTheInputWires : Prop :=
  ∀ (s : State) (e : Env), outPorts { s with env := e } = outPorts s

/-- R113, R296, R303: the item the first worker receives, by what the host offers; of a byte and a terminal offered
together, either, and the byte that loses is never taken. -/
def Obligations.HostOffersArriveAsItems : Prop :=
  ∀ s : State, (currentMove s).offerIn = true →
    (s.env.input = [] → arrivingItem s = none) ∧
    (∀ b rest, s.env.input = .byte b :: rest →
      arrivingItem s = some (.data b) ∧ (hostSent (.data b) s).env.input = rest) ∧
    (∀ rest, s.env.input = .term false :: rest →
      arrivingItem s = some (.term .eos) ∧ (hostSent (.term .eos) s).env.input = rest) ∧
    (∀ rest, s.env.input = .term true :: rest →
      arrivingItem s = some (.term (.fail .te)) ∧ (hostSent (.term (.fail .te)) s).env.input = rest) ∧
    ∀ b f rest, s.env.input = .both b f :: rest →
      arrivingItem s = (if (currentMove s).raceTerm then some (.term (inputTerminal f)) else some (.data b)) ∧
      (hostSent (.data b) s).env.input = .term f :: rest ∧ (hostSent (.term (inputTerminal f)) s).env.input = rest

/-! ### Whole-machine rules -/

/-- R300: the steps that fall on one edge touch disjoint state, so their order does not matter; for every command. -/
def Obligations.StepsOfOneEdgeCommute : Prop :=
  ∀ (i : Instr) (s : State) (order : List EdgePart), s.top = .run → (pipelineOf i).inBounds s = true →
    order.Perm [.inner, .input, .output] →
    exec i s = .next (order.foldl (applyPart (pipelineOf i) s) s)

/-- R398, R77: while a command runs, what stands on the command and operand wires makes no difference. -/
def Obligations.OperandWiresAreNotReadWhileRunning : Prop :=
  ∀ (i : Instr) (s : State) (j : Job) (js : List Job) (v : Bool), s.top = .run →
    let rewire : State → State := fun t => { t with env := { t.env with job := j, jobs := js, cmdValid := v } }
    exec i (rewire s) = match exec i s with
      | .next t => .next (rewire t)
      | .fault f => .fault f
      | .refused r => .refused r

/-- R38: while a command runs, the latches and the round-key store do not change, the registers of a worker the command
does not use do not change, `S`, `RND` and `PH` change only for a command that invokes the block core or a primitive, and
of the host only its offers on `CH_IN` and what it has taken. -/
def Obligations.OnlyTheOwnersRegistersChange : Prop :=
  ∀ (i : Instr) (s t : State), s.top = .run → exec i s = .next t →
    t.latch = s.latch ∧ t.sched = s.sched ∧
    (.oneshot ∉ workersOf i → t.one = s.one) ∧
    (.pad ∉ workersOf i → t.pad = s.pad) ∧
    (.engine ∉ workersOf i → t.eng = s.eng) ∧
    (.unpad ∉ workersOf i → t.unp = s.unp) ∧
    ((i = .pad ∨ i = .unpad ∨ ∃ k, i = .keySched k) → t.core = s.core) ∧
    t.env.cmdValid = s.env.cmdValid ∧ t.env.job = s.env.job ∧ t.env.jobs = s.env.jobs ∧ t.env.moves = s.env.moves ∧
    t.env.rest = s.env.rest ∧ t.edges = s.edges

/-- R234, R38: ECB neither reads nor writes `FB`: changing it changes nothing else. -/
def Obligations.EcbIgnoresTheFeedbackRegister : Prop :=
  ∀ (i : Instr) (k : KeySize) (s : State) (fb : Block), s.top = .run →
    i ∈ [.ecbEnc k, .ecbDec k, .ecbEncPad k, .ecbDecUnpad k] →
    exec i { s with eng.fb := fb } = match exec i s with
      | .next t => .next { t with eng.fb := fb }
      | .fault f => .fault f
      | .refused r => .refused r

/-- R21, R297, R309: `TOP` becomes RUN only by acceptance, and IDLE only as the terminal is taken, on abort or on reset; an
edge takes at most one item, and the item is a terminal exactly when the command is complete. -/
def Obligations.TopFollowsAcceptanceAndTerminal : Prop :=
  ∀ s t : State, step s = .next t →
    ((outPorts s).busy = true ↔ s.top = .run) ∧
    (t.env.taken = s.env.taken ∨ s.top = .run ∧ ∃ x, t.env.taken = s.env.taken ++ [x]) ∧
    (s.top = .idle → t.top = .run → (inPorts s).cmdValid = true ∧ ∃ i, decode (inPorts s).cmd = some i) ∧
    (s.top = .run → (inPorts s).rst = false → (inPorts s).abort = false →
      (t.top = .idle ↔ ∃ x, t.env.taken = s.env.taken ++ [.term x])) ∧
    (((inPorts s).rst = true ∨ (inPorts s).abort = true) → t.top = .idle ∧ t.env.taken = s.env.taken ∧ t.env.input = s.env.input)

/-- R242, R298: a worker that offers its terminal offers that terminal until it is delivered, and once done stays done, for
as long as the command runs. -/
def Obligations.NothingFollowsATerminal : Prop :=
  ∀ (s t : State) (w : Worker), step s = .next t → s.top = .run → (inPorts s).rst = false → (inPorts s).abort = false →
    (∀ x, workerTerminal w s = some x → workerTerminal w t = some x ∨ workerDone w t = true) ∧
    (workerDone w s = true → workerDone w t = true)

/-! ### Invariants -/

/-- The state after reset meets the invariant. -/
def Obligations.ResetMeetsTheInvariant : Prop := Inv State.reset

/-- Every step keeps the invariant: a running core runs a legal command with the workers of R292, its schedule is that of
its key, its counters are within the bounds of R157, and only the terminals of R346 are on offer. -/
def Obligations.EveryStepKeepsTheInvariant : Prop := ∀ s t : State, Inv s → step s = .next t → Inv t

/-- R157: from a state that meets the invariant no step faults; it stops only on a command that R109 reserves. -/
def Obligations.NoStepFaultsUnderTheInvariant : Prop :=
  ∀ s : State, Inv s → (∀ f, step s ≠ .fault f) ∧ (s.top = .run → ∃ t, step s = .next t)

/-- R346, R342: whatever terminal is taken, the command that ran can report it; ISE only with a key size without a
schedule. -/
def Obligations.OnlyReportableTerminalsAreDelivered : Prop :=
  ∀ (s t : State) (i : Instr) (x : Terminal), Inv s → s.top = .run → decode s.latch.cmdr = some i → step s = .next t →
    t.env.taken = s.env.taken ++ [.term x] → x ∈ reportable i

/-! ### Stream functions -/

/-- R261, with R266: the pad amount is the number of bytes appended and the value of each, and the output length is the
smallest multiple of the block size greater than the input length. -/
def Obligations.PadAppendsOneToBlockSizeBytes : Prop :=
  ∀ (bsz : Nat) (xs : List Byte), 1 ≤ bsz → bsz ≤ 255 →
    let p := bsz - xs.length % bsz
    let ys := (padStream bsz ⟨xs, .eos⟩).bytes
    1 ≤ p ∧ p ≤ bsz ∧ ys.take xs.length = xs ∧ ys.length = xs.length + p ∧
      (∀ b ∈ ys.drop xs.length, b.toNat = p) ∧ ys.length % bsz = 0 ∧
      ∀ m, xs.length < m → m % bsz = 0 → ys.length ≤ m

/-- R274: UNPAD undoes PAD. -/
def Obligations.UnpadUndoesPad : Prop :=
  ∀ (bsz : Nat) (xs : List Byte), 1 ≤ bsz → bsz ≤ 255 → unpadStream bsz (padStream bsz ⟨xs, .eos⟩) = ⟨xs, .eos⟩

/-- R244: for whole blocks, CBC.DEC of CBC.ENC under the same key and initial value gives the input back, and so does ECB;
the output is `16 * q` bytes; equal blocks give equal ECB output blocks. -/
def Obligations.ChainingModesInvert : Prop :=
  ∀ (rk : RoundKeys) (iv : Block) (xs : List Byte),
    (xs.length % 16 = 0 →
      chainStream .cbcDec true rk iv (chainStream .cbcEnc true rk iv ⟨xs, .eos⟩) = ⟨xs, .eos⟩ ∧
      chainStream .ecbDec true rk iv (chainStream .ecbEnc true rk iv ⟨xs, .eos⟩) = ⟨xs, .eos⟩) ∧
    (∀ m, (chainStream m true rk iv ⟨xs, .eos⟩).bytes.length = 16 * (xs.length / 16)) ∧
    ∀ j l, blockOf xs j = blockOf xs l → outBlock .ecbEnc rk iv xs j = outBlock .ecbEnc rk iv xs l

/-- R306 for the commands of ONESHOT: under every schedule and every pace of the host, what is taken is a prefix of the
command's stream and no step stops; if the host keeps offering and receiving, the whole stream is delivered. -/
def Obligations.OneshotCommandsDeliverTheirStream : Prop :=
  ∀ (i : Instr) (xs : List Byte) (failed : Bool) (s : State), workersOf i = [.oneshot] → Offered i xs failed s →
    (∀ n, ∃ t q, runFor n s = some t ∧ t.env.taken = s.env.taken ++ (promised i xs failed s).items.take q) ∧
    (willing s → ∃ n t, runFor n s = some t ∧ t.top = .idle ∧ t.env.cmdValid = false ∧
      t.env.taken = s.env.taken ++ (promised i xs failed s).items)

/-- R264, R306: the same for PAD. -/
def Obligations.PadDeliversItsStream : Prop :=
  ∀ (xs : List Byte) (failed : Bool) (s : State), Offered .pad xs failed s →
    (∀ n, ∃ t q, runFor n s = some t ∧ t.env.taken = s.env.taken ++ (promised .pad xs failed s).items.take q) ∧
    (willing s → ∃ n t, runFor n s = some t ∧ t.top = .idle ∧ t.env.cmdValid = false ∧
      t.env.taken = s.env.taken ++ (promised .pad xs failed s).items)

/-- R273, R306: the same for UNPAD. -/
def Obligations.UnpadDeliversItsStream : Prop :=
  ∀ (xs : List Byte) (failed : Bool) (s : State), Offered .unpad xs failed s →
    (∀ n, ∃ t q, runFor n s = some t ∧ t.env.taken = s.env.taken ++ (promised .unpad xs failed s).items.take q) ∧
    (willing s → ∃ n t, runFor n s = some t ∧ t.top = .idle ∧ t.env.cmdValid = false ∧
      t.env.taken = s.env.taken ++ (promised .unpad xs failed s).items)

/-- R243, R306: the same for ECB.ENC, ECB.DEC, CBC.ENC, CBC.DEC. -/
def Obligations.ChainingCommandsDeliverTheirStream : Prop :=
  ∀ (m : ChainMode) (k : KeySize) (xs : List Byte) (failed : Bool) (s : State), Offered (chainCommand m k) xs failed s →
    (∀ n, ∃ t q, runFor n s = some t ∧
      t.env.taken = s.env.taken ++ (promised (chainCommand m k) xs failed s).items.take q) ∧
    (willing s → ∃ n t, runFor n s = some t ∧ t.top = .idle ∧ t.env.cmdValid = false ∧
      t.env.taken = s.env.taken ++ (promised (chainCommand m k) xs failed s).items)

/-- R279, R306: the same for the four padded pipelines, whose stream is the composition of those of their workers. -/
def Obligations.PaddedPipelinesDeliverTheComposition : Prop :=
  ∀ (m : ChainMode) (k : KeySize) (xs : List Byte) (failed : Bool) (s : State), Offered (paddedCommand m k) xs failed s →
    (∀ n, ∃ t q, runFor n s = some t ∧
      t.env.taken = s.env.taken ++ (promised (paddedCommand m k) xs failed s).items.take q) ∧
    (willing s → ∃ n t, runFor n s = some t ∧ t.top = .idle ∧ t.env.cmdValid = false ∧
      t.env.taken = s.env.taken ++ (promised (paddedCommand m k) xs failed s).items)

/-! ### Isolation -/

/-- R39, R353: what an idle core's registers hold cannot be observed: two idle cores with the same host behave alike for
ever, whatever their registers hold. -/
def Obligations.ResidueIsUnobservable : Prop :=
  ∀ (n : Nat) (s s' : State), s.top = .idle → s'.top = .idle → s'.env = s.env →
    (runFor n s').map (fun t => (t.top, t.env)) = (runFor n s).map (fun t => (t.top, t.env))
end

