-- ==== Sys2Proof/Laws/State.lean ====
section
/-! SUPPORT. What each named update of the state leaves in each group of registers, true by `rfl`, so that a proof never
unfolds a record update. -/

namespace Sys2Proof.Machine

/-! ### `closeEdge` -/

@[simp] theorem closeEdge_top (s : State) : (closeEdge s).top = s.top := rfl
@[simp] theorem closeEdge_latch (s : State) : (closeEdge s).latch = s.latch := rfl
@[simp] theorem closeEdge_sched (s : State) : (closeEdge s).sched = s.sched := rfl
@[simp] theorem closeEdge_core (s : State) : (closeEdge s).core = s.core := rfl
@[simp] theorem closeEdge_one (s : State) : (closeEdge s).one = s.one := rfl
@[simp] theorem closeEdge_eng (s : State) : (closeEdge s).eng = s.eng := rfl
@[simp] theorem closeEdge_pad (s : State) : (closeEdge s).pad = s.pad := rfl
@[simp] theorem closeEdge_unp (s : State) : (closeEdge s).unp = s.unp := rfl
@[simp] theorem closeEdge_env (s : State) : (closeEdge s).env = { s.env with moves := s.env.moves.tail } := rfl
@[simp] theorem closeEdge_edges (s : State) : (closeEdge s).edges = s.edges + 1 := rfl

/-! ### `hostSent` -/

@[simp] theorem hostSent_top (x : Item) (s : State) : (hostSent x s).top = s.top := rfl
@[simp] theorem hostSent_latch (x : Item) (s : State) : (hostSent x s).latch = s.latch := rfl
@[simp] theorem hostSent_sched (x : Item) (s : State) : (hostSent x s).sched = s.sched := rfl
@[simp] theorem hostSent_core (x : Item) (s : State) : (hostSent x s).core = s.core := rfl
@[simp] theorem hostSent_one (x : Item) (s : State) : (hostSent x s).one = s.one := rfl
@[simp] theorem hostSent_eng (x : Item) (s : State) : (hostSent x s).eng = s.eng := rfl
@[simp] theorem hostSent_pad (x : Item) (s : State) : (hostSent x s).pad = s.pad := rfl
@[simp] theorem hostSent_unp (x : Item) (s : State) : (hostSent x s).unp = s.unp := rfl
@[simp] theorem hostSent_env (x : Item) (s : State) :
    (hostSent x s).env = { s.env with input := offersAfter x s.env.input } := rfl
@[simp] theorem hostSent_edges (x : Item) (s : State) : (hostSent x s).edges = s.edges := rfl

/-! ### `idleWorkers` -/

@[simp] theorem idleWorkers_top (s : State) : (idleWorkers s).top = s.top := rfl
@[simp] theorem idleWorkers_latch (s : State) : (idleWorkers s).latch = s.latch := rfl
@[simp] theorem idleWorkers_sched (s : State) : (idleWorkers s).sched = s.sched := rfl
@[simp] theorem idleWorkers_core (s : State) : (idleWorkers s).core = s.core := rfl
@[simp] theorem idleWorkers_one (s : State) : (idleWorkers s).one = { s.one with ost := .idle } := rfl
@[simp] theorem idleWorkers_eng (s : State) : (idleWorkers s).eng = { s.eng with est := .idle } := rfl
@[simp] theorem idleWorkers_pad (s : State) : (idleWorkers s).pad = { s.pad with pst := .idle } := rfl
@[simp] theorem idleWorkers_unp (s : State) : (idleWorkers s).unp = { s.unp with ust := .idle } := rfl
@[simp] theorem idleWorkers_env (s : State) : (idleWorkers s).env = s.env := rfl
@[simp] theorem idleWorkers_edges (s : State) : (idleWorkers s).edges = s.edges := rfl

/-! ### `resetEdge` (R390) -/

@[simp] theorem resetEdge_top (s : State) : (resetEdge s).top = .idle := rfl
@[simp] theorem resetEdge_latch (s : State) : (resetEdge s).latch = s.latch := rfl
@[simp] theorem resetEdge_sched (s : State) : (resetEdge s).sched = { s.sched with rkn := 0 } := rfl
@[simp] theorem resetEdge_core (s : State) : (resetEdge s).core = s.core := rfl
@[simp] theorem resetEdge_one (s : State) : (resetEdge s).one = { s.one with ost := .idle } := rfl
@[simp] theorem resetEdge_eng (s : State) : (resetEdge s).eng = { s.eng with est := .idle } := rfl
@[simp] theorem resetEdge_pad (s : State) : (resetEdge s).pad = { s.pad with pst := .idle } := rfl
@[simp] theorem resetEdge_unp (s : State) : (resetEdge s).unp = { s.unp with ust := .idle } := rfl
@[simp] theorem resetEdge_env (s : State) : (resetEdge s).env = s.env := rfl
@[simp] theorem resetEdge_edges (s : State) : (resetEdge s).edges = s.edges := rfl

/-! ### `latchOperands` (R108) -/

@[simp] theorem latchOperands_top (i : Instr) (s : State) : (latchOperands i s).top = s.top := rfl
@[simp] theorem latchOperands_latch (i : Instr) (s : State) : (latchOperands i s).latch =
      { cmdr := encode i, key := blockOfPort s.env.job.key, ivr := blockOfPort s.env.job.iv,
        blk := blockOfPort s.env.job.blk, bsz := s.env.job.blksz } := rfl
@[simp] theorem latchOperands_sched (i : Instr) (s : State) : (latchOperands i s).sched = s.sched := rfl
@[simp] theorem latchOperands_core (i : Instr) (s : State) : (latchOperands i s).core = s.core := rfl
@[simp] theorem latchOperands_one (i : Instr) (s : State) : (latchOperands i s).one = s.one := rfl
@[simp] theorem latchOperands_eng (i : Instr) (s : State) : (latchOperands i s).eng = s.eng := rfl
@[simp] theorem latchOperands_pad (i : Instr) (s : State) : (latchOperands i s).pad = s.pad := rfl
@[simp] theorem latchOperands_unp (i : Instr) (s : State) : (latchOperands i s).unp = s.unp := rfl
@[simp] theorem latchOperands_env (i : Instr) (s : State) : (latchOperands i s).env = s.env := rfl
@[simp] theorem latchOperands_edges (i : Instr) (s : State) : (latchOperands i s).edges = s.edges := rfl

/-! ### `computePrimitive` (R141) -/

@[simp] theorem computePrimitive_top (y : Block) (s : State) : (computePrimitive y s).top = s.top := rfl
@[simp] theorem computePrimitive_latch (y : Block) (s : State) : (computePrimitive y s).latch = s.latch := rfl
@[simp] theorem computePrimitive_sched (y : Block) (s : State) : (computePrimitive y s).sched = s.sched := rfl
@[simp] theorem computePrimitive_core (y : Block) (s : State) :
    (computePrimitive y s).core = { s.core with sreg := y } := rfl
@[simp] theorem computePrimitive_one (y : Block) (s : State) :
    (computePrimitive y s).one = { s.one with oj := 0, ost := .emit } := rfl
@[simp] theorem computePrimitive_eng (y : Block) (s : State) : (computePrimitive y s).eng = s.eng := rfl
@[simp] theorem computePrimitive_pad (y : Block) (s : State) : (computePrimitive y s).pad = s.pad := rfl
@[simp] theorem computePrimitive_unp (y : Block) (s : State) : (computePrimitive y s).unp = s.unp := rfl
@[simp] theorem computePrimitive_env (y : Block) (s : State) : (computePrimitive y s).env = s.env := rfl
@[simp] theorem computePrimitive_edges (y : Block) (s : State) : (computePrimitive y s).edges = s.edges := rfl

/-! ### `toTerminal` and `raise` (R344) -/

@[simp] theorem toTerminal_oneshot (t : Terminal) (s : State) :
    toTerminal .oneshot t s = { s with one := { s.one with ost := .term t } } := rfl
@[simp] theorem toTerminal_pad (t : Terminal) (s : State) :
    toTerminal .pad t s = { s with pad := { s.pad with pst := .term t } } := rfl
@[simp] theorem toTerminal_engine (t : Terminal) (s : State) :
    toTerminal .engine t s = { s with eng := { s.eng with est := .term t } } := rfl
@[simp] theorem toTerminal_unpad (t : Terminal) (s : State) :
    toTerminal .unpad t s = { s with unp := { s.unp with ust := .term t } } := rfl
@[simp] theorem raise_eq (w : Worker) (e : Err) (s : State) : raise w e s = toTerminal w (.fail e) s := rfl

/-! ### `hostTook` (R297) -/

@[simp] theorem hostTook_latch (x : Item) (s : State) : (hostTook x s).latch = s.latch := by cases x <;> rfl
@[simp] theorem hostTook_sched (x : Item) (s : State) : (hostTook x s).sched = s.sched := by cases x <;> rfl
@[simp] theorem hostTook_core (x : Item) (s : State) : (hostTook x s).core = s.core := by cases x <;> rfl
@[simp] theorem hostTook_one (x : Item) (s : State) : (hostTook x s).one = s.one := by cases x <;> rfl
@[simp] theorem hostTook_eng (x : Item) (s : State) : (hostTook x s).eng = s.eng := by cases x <;> rfl
@[simp] theorem hostTook_pad (x : Item) (s : State) : (hostTook x s).pad = s.pad := by cases x <;> rfl
@[simp] theorem hostTook_unp (x : Item) (s : State) : (hostTook x s).unp = s.unp := by cases x <;> rfl
@[simp] theorem hostTook_edges (x : Item) (s : State) : (hostTook x s).edges = s.edges := by cases x <;> rfl
@[simp] theorem hostTook_env (x : Item) (s : State) :
    (hostTook x s).env = { s.env with taken := s.env.taken ++ [x] } := by cases x <;> rfl
@[simp] theorem hostTook_data_top (b : Byte) (s : State) : (hostTook (.data b) s).top = s.top := rfl
@[simp] theorem hostTook_term_top (t : Terminal) (s : State) : (hostTook (.term t) s).top = .idle := rfl

/-! ### `hostAccepted` (R108) -/

@[simp] theorem hostAccepted_top (s : State) : (hostAccepted s).top = s.top := by
  simp only [hostAccepted]; split <;> rfl
@[simp] theorem hostAccepted_latch (s : State) : (hostAccepted s).latch = s.latch := by
  simp only [hostAccepted]; split <;> rfl
@[simp] theorem hostAccepted_sched (s : State) : (hostAccepted s).sched = s.sched := by
  simp only [hostAccepted]; split <;> rfl
@[simp] theorem hostAccepted_core (s : State) : (hostAccepted s).core = s.core := by
  simp only [hostAccepted]; split <;> rfl
@[simp] theorem hostAccepted_one (s : State) : (hostAccepted s).one = s.one := by
  simp only [hostAccepted]; split <;> rfl
@[simp] theorem hostAccepted_eng (s : State) : (hostAccepted s).eng = s.eng := by
  simp only [hostAccepted]; split <;> rfl
@[simp] theorem hostAccepted_pad (s : State) : (hostAccepted s).pad = s.pad := by
  simp only [hostAccepted]; split <;> rfl
@[simp] theorem hostAccepted_unp (s : State) : (hostAccepted s).unp = s.unp := by
  simp only [hostAccepted]; split <;> rfl
@[simp] theorem hostAccepted_edges (s : State) : (hostAccepted s).edges = s.edges := by
  simp only [hostAccepted]; split <;> rfl
@[simp] theorem hostAccepted_taken (s : State) :
    (hostAccepted s).env.taken = s.env.taken := by
  simp only [hostAccepted]; split <;> rfl
@[simp] theorem hostAccepted_moves (s : State) :
    (hostAccepted s).env.moves = s.env.moves := by
  simp only [hostAccepted]; split <;> rfl
@[simp] theorem hostAccepted_input (s : State) :
    (hostAccepted s).env.input = (if s.env.job.keepStale then s.env.input else []) ++ s.env.job.feed := by
  simp only [hostAccepted]; split <;> rfl

end Sys2Proof.Machine
end

