-- ==== Sys2Proof/Laws/Ops.lean ====
section
/-! SUPPORT. For each shared operation, once, everything it can do; later proofs cite these and do not unfold it. -/

namespace Sys2Proof.Machine

/-! ### One step of the machine -/

/-- Every meaning is `runCommand` over the workers of the command. -/
theorem exec_eq (i : Instr) (s : State) : exec i s = runCommand i (pipelineOf i) s := by cases i <;> rfl

theorem exec_idle {i : Instr} {s : State} (h : s.top = .idle) :
    exec i s = if blockSizeOk i (inPorts s).blksz then .next (acceptCommand i s) else .refused .zeroBlockSize := by
  rw [exec_eq, runCommand, h]

theorem exec_run {i : Instr} {s : State} (h : s.top = .run) :
    exec i s = if (pipelineOf i).inBounds s then .next ((pipelineOf i).edge s) else .fault .counterOutOfBound := by
  rw [exec_eq, runCommand, h]

/-- All that a meaning can do when it gives a next state. -/
theorem exec_next_cases {i : Instr} {s t : State} (h : exec i s = .next t) :
    (s.top = .idle ∧ blockSizeOk i s.env.job.blksz = true ∧ t = acceptCommand i s) ∨
    (s.top = .run ∧ (pipelineOf i).inBounds s = true ∧ t = (pipelineOf i).edge s) := by
  rcases ht : s.top with _ | _
  · rw [exec_idle ht] at h
    split at h
    · exact .inl ⟨rfl, ‹_›, by simpa using h.symm⟩
    · cases h
  · rw [exec_run ht] at h
    split at h
    · exact .inr ⟨rfl, ‹_›, by simpa using h.symm⟩
    · cases h

/-- All that a step can do when it gives a next state. -/
theorem step_next_cases {s t : State} (h : step s = .next t) :
    ((currentMove s).rst = true ∧ t = closeEdge (resetEdge s)) ∨
    ((currentMove s).rst = false ∧ (currentMove s).abort = true ∧ t = closeEdge (abortEdge s)) ∨
    ((currentMove s).rst = false ∧ (currentMove s).abort = false ∧ s.top = .idle ∧ (inPorts s).cmdValid = false ∧
      t = closeEdge s) ∨
    ((currentMove s).rst = false ∧ (currentMove s).abort = false ∧ s.top = .idle ∧ (inPorts s).cmdValid = true ∧
      ∃ i, decode s.env.job.cmd = some i ∧ blockSizeOk i s.env.job.blksz = true ∧ t = closeEdge (acceptCommand i s)) ∨
    ((currentMove s).rst = false ∧ (currentMove s).abort = false ∧ s.top = .run ∧
      ∃ i, decode s.latch.cmdr = some i ∧ (pipelineOf i).inBounds s = true ∧
        t = closeEdge ((pipelineOf i).edge s)) := by
  have exec_close : ∀ i, closeOutcome (exec i s) = .next t → ∃ u, exec i s = .next u ∧ t = closeEdge u := by
    intro i hi
    cases he : exec i s with
    | next u => exact ⟨u, rfl, by simpa [he, closeOutcome] using hi.symm⟩
    | fault f => simp [he, closeOutcome] at hi
    | refused r => simp [he, closeOutcome] at hi
  have hr : (inPorts s).rst = (currentMove s).rst := rfl
  have ha : (inPorts s).abort = (currentMove s).abort := rfl
  cases hrst : (currentMove s).rst
  case true => exact .inl ⟨rfl, by simpa [step, edgeKind, hr, hrst] using h.symm⟩
  cases habt : (currentMove s).abort
  case true => exact .inr (.inl ⟨rfl, rfl, by simpa [step, edgeKind, hr, ha, hrst, habt] using h.symm⟩)
  rcases htop : s.top with _ | _
  · cases hcv : (inPorts s).cmdValid
    case false =>
      exact .inr (.inr (.inl ⟨rfl, rfl, rfl, rfl, by simpa [step, edgeKind, hr, ha, hrst, habt, htop, hcv] using h.symm⟩))
    cases hd : decode (inPorts s).cmd with
    | none => simp [step, edgeKind, hr, ha, hrst, habt, htop, hcv, hd] at h
    | some i =>
      simp only [step, edgeKind, hr, ha, hrst, habt, htop, hcv, hd, Bool.false_eq_true, if_false, if_true] at h
      obtain ⟨u, hu, rfl⟩ := exec_close i h
      obtain ⟨-, hb, rfl⟩ | ⟨hrun, -⟩ := exec_next_cases hu
      · exact .inr (.inr (.inr (.inl ⟨rfl, rfl, rfl, rfl, i, hd, hb, rfl⟩)))
      · rw [htop] at hrun; cases hrun
  · cases hd : decode s.latch.cmdr with
    | none => simp [step, edgeKind, hr, ha, hrst, habt, htop, hd] at h
    | some i =>
      simp only [step, edgeKind, hr, ha, hrst, habt, htop, hd, Bool.false_eq_true, if_false] at h
      obtain ⟨u, hu, rfl⟩ := exec_close i h
      obtain ⟨hidle, -⟩ | ⟨-, hb, rfl⟩ := exec_next_cases hu
      · rw [htop] at hidle; cases hidle
      · exact .inr (.inr (.inr (.inr ⟨rfl, rfl, rfl, i, rfl, hb, rfl⟩)))

/-! ### Buffers -/

theorem readAt_of_lt {n : Nat} (v : Vector Byte n) {i : Nat} (h : i < n) : readAt v i = v[i] := by simp [readAt, h]

@[simp] theorem readAt_fin {n : Nat} (v : Vector Byte n) (i : Fin n) : readAt v i.val = v[i.val] := readAt_of_lt v i.isLt

/-- A read after a write to the same place gives the value written. -/
@[simp] theorem readAt_writeAt_same {n : Nat} (v : Vector Byte n) {i : Nat} (b : Byte) (h : i < n) :
    readAt (writeAt v i b) i = b := by
  simp [readAt, writeAt, h]

/-- A write leaves every other place alone. -/
@[simp] theorem readAt_writeAt_ne {n : Nat} (v : Vector Byte n) {i j : Nat} (b : Byte) (h : i ≠ j) :
    readAt (writeAt v i b) j = readAt v j := by
  by_cases hj : j < n <;> simp [readAt, writeAt, hj, h]

theorem block_ext {x y : Block} (h : ∀ i < 16, readAt x i = readAt y i) : x = y := by
  apply Vector.ext
  intro i hi
  simpa [readAt_of_lt _ hi] using h i hi

@[simp] theorem roundKeyAt_of_lt (rk : RoundKeys) {i : Nat} (h : i < 11) : roundKeyAt rk i = rk[i] := by
  simp [roundKeyAt, h]

@[simp] theorem getElem_xorBlock (x y : Block) (i : Nat) (h : i < 16) : (xorBlock x y)[i] = x[i] ^^^ y[i] := by
  simp [xorBlock]

/-! ### Parts of an edge: what each worker operation may touch (R38, R300) -/

/-- ENGINE receiving an item writes ENGINE's registers and reads no others. -/
theorem engineReceive_frame (x : Item) (s : State) :
    engineReceive x s = { s with eng := (engineReceive x s).eng } ∧
      ∀ s' : State, s'.eng = s.eng → (engineReceive x s').eng = (engineReceive x s).eng := by
  constructor
  · rcases x with b | (_ | e)
    · simp only [engineReceive]; split <;> rfl
    · simp only [engineReceive]; split <;> rfl
    · rfl
  · rintro s' h
    rcases x with b | (_ | e)
    · simp only [engineReceive, h]; split <;> simp
    · simp only [engineReceive, h]; split <;> simp [h]
    · simp [engineReceive, h]

/-- ENGINE's "on transfer" actions write ENGINE's registers and read no others. -/
theorem engineSent_frame (s : State) :
    engineSent s = { s with eng := (engineSent s).eng } ∧
      ∀ s' : State, s'.eng = s.eng → (engineSent s').eng = (engineSent s).eng := by
  constructor
  · simp only [engineSent]; split
    · split <;> rfl
    all_goals rfl
  · rintro s' h
    simp only [engineSent, h]; split
    · split <;> simp
    all_goals simp [h]

/-- PAD receiving an item writes PAD's registers and reads those and `BSZ`. -/
theorem padReceive_frame (x : Item) (s : State) :
    padReceive x s = { s with pad := (padReceive x s).pad } ∧
      ∀ s' : State, s'.pad = s.pad → s'.latch = s.latch → (padReceive x s').pad = (padReceive x s).pad := by
  constructor
  · rcases x with b | (_ | e)
    · simp only [padReceive]; split <;> rfl
    · rfl
    · rfl
  · rintro s' h hl
    rcases x with b | (_ | e)
    · simp only [padReceive, h, hl]; split <;> simp
    · simp [padReceive, h, hl]
    · simp [padReceive, h]

/-- PAD's "on transfer" actions write PAD's registers and read those and `BSZ`. -/
theorem padSent_frame (s : State) :
    padSent s = { s with pad := (padSent s).pad } ∧
      ∀ s' : State, s'.pad = s.pad → s'.latch = s.latch → (padSent s').pad = (padSent s).pad := by
  constructor
  · simp only [padSent]; split
    · split
      · split <;> rfl
      · rfl
    all_goals rfl
  · rintro s' h hl
    simp only [padSent, h, hl]; split
    · split
      · split <;> simp
      · simp
    all_goals simp [h]

/-- UNPAD at the end of input writes UNPAD's registers and reads those and `BSZ`. -/
theorem unpadEnd_frame (s : State) :
    unpadEnd s = { s with unp := (unpadEnd s).unp } ∧
      ∀ s' : State, s'.unp = s.unp → s'.latch = s.latch → (unpadEnd s').unp = (unpadEnd s).unp := by
  constructor
  · simp only [unpadEnd]; split
    · rfl
    · split
      · rfl
      · split
        · split <;> rfl
        · rfl
  · rintro s' h hl
    simp only [unpadEnd, h, hl]; split
    · simp [h]
    · split
      · simp [h]
      · split
        · split <;> simp
        · simp [h]

/-- UNPAD receiving an item writes UNPAD's registers and reads those and `BSZ`. -/
theorem unpadReceive_frame (x : Item) (s : State) :
    unpadReceive x s = { s with unp := (unpadReceive x s).unp } ∧
      ∀ s' : State, s'.unp = s.unp → s'.latch = s.latch → (unpadReceive x s').unp = (unpadReceive x s).unp := by
  rcases x with b | (_ | e)
  · constructor
    · simp only [unpadReceive]; split <;> rfl
    · rintro s' h hl
      simp only [unpadReceive, h, hl]; split <;> simp
  · exact unpadEnd_frame s
  · constructor
    · rfl
    · rintro s' h hl; simp [unpadReceive, h]

/-- UNPAD's "on transfer" actions write UNPAD's registers and read no others. -/
theorem unpadSent_frame (s : State) :
    unpadSent s = { s with unp := (unpadSent s).unp } ∧
      ∀ s' : State, s'.unp = s.unp → (unpadSent s').unp = (unpadSent s).unp := by
  constructor
  · simp only [unpadSent]; split
    · split
      · split <;> rfl
      · rfl
    all_goals rfl
  · rintro s' h
    simp only [unpadSent, h]; split
    · split
      · split <;> simp
      · simp
    all_goals simp [h]

/-- ONESHOT's "on transfer" actions of a block result write ONESHOT's registers and read no others. -/
theorem blockSent_frame (s : State) :
    blockSent s = { s with one := (blockSent s).one } ∧
      ∀ s' : State, s'.one = s.one → (blockSent s').one = (blockSent s).one := by
  constructor
  · simp only [blockSent]; split
    · split <;> rfl
    all_goals rfl
  · rintro s' h
    simp only [blockSent, h]; split
    · split <;> simp
    all_goals simp [h]

/-- ONESHOT's "on transfer" actions of KEYSCHED write ONESHOT's registers and read those and `RKN`. -/
theorem keysSent_frame (s : State) :
    keysSent s = { s with one := (keysSent s).one } ∧
      ∀ s' : State, s'.one = s.one → s'.sched = s.sched → (keysSent s').one = (keysSent s).one := by
  constructor
  · simp only [keysSent]; split
    · split <;> split <;> rfl
    all_goals rfl
  · rintro s' h hs
    simp only [keysSent, h, hs]; split
    · split <;> split <;> simp_all
    all_goals simp [h]

/-- The block core writes the state register and the sequencer, and only with a valid schedule (R203). -/
theorem blockCore_eq (d : Direction) (x : Block) (s : State) :
    blockCore d x s = if s.sched.rkn = 11 then
        .ok ((seqRun d s.sched.rk x).sreg, { s with core := seqRun d s.sched.rk x })
      else .error .ise := rfl

/-! ### Ports -/

/-- What arrives, by what the host offers and the race of R303. -/
theorem arrivingItem_eq (s : State) :
    arrivingItem s = match currentOffer s with
      | none => none
      | some (.byte b) => some (.data b)
      | some (.term f) => some (.term (inputTerminal f))
      | some (.both b f) =>
        if (currentMove s).raceTerm then some (.term (inputTerminal f)) else some (.data b) := by
  rcases h : currentOffer s with _ | (b | f | ⟨b, f⟩) <;> simp [arrivingItem, inPorts, h]

@[simp] theorem currentMove_congr {s s' : State} (h : s'.env = s.env) : currentMove s' = currentMove s := by
  simp [currentMove, h]

theorem currentOffer_congr {s s' : State} (h : s'.env = s.env) : currentOffer s' = currentOffer s := by
  simp [currentOffer, currentMove, h]

/-- The input wires depend on the host alone. -/
theorem inPorts_congr {s s' : State} (h : s'.env = s.env) : inPorts s' = inPorts s := by
  simp [inPorts, currentOffer, currentMove, h]

theorem arrivingItem_congr {s s' : State} (h : s'.env = s.env) : arrivingItem s' = arrivingItem s := by
  simp [arrivingItem, inPorts_congr h, currentMove, h]

end Sys2Proof.Machine
end

