-- ==== Sys2Proof/Laws/PerInstr.lean ====
section
/-! SUPPORT. Statements made per instruction. `Fields`: what the tables of Machine/Operands.lean say of a command is what
the spec says of the fields of its command word (30_encoding.md R107 to R109; 45_stream_pipeline.md R292). -/

namespace Sys2Proof.Laws.Fields

open Sys2Proof.Machine

/-- The key size, the use of a schedule, the use of the feedback register and the workers of a command, read off the
fields of its word. -/
def Statement (i : Instr) : Prop :=
  let op := (opField (encode i)).toNat
  let dir := dirField (encode i)
  let padded := padenField (encode i) = 1 ∨ op = 8
  decodeKeySize (kszField (encode i)) = keySizeOf i ∧
  (usesSchedule i = true ↔ op ∈ [4, 5, 6, 7]) ∧
  (usesFeedback i = true ↔ op = 7) ∧
  (.oneshot ∈ workersOf i ↔ op ≤ 5) ∧
  (.pad ∈ workersOf i ↔ dir = 0 ∧ padded) ∧
  (.engine ∈ workersOf i ↔ op ∈ [6, 7]) ∧
  (.unpad ∈ workersOf i ↔ dir = 1 ∧ padded)

theorem subBytes : Statement .subBytes := by unfold Statement; decide
theorem invSubBytes : Statement .invSubBytes := by unfold Statement; decide
theorem shiftRows : Statement .shiftRows := by unfold Statement; decide
theorem invShiftRows : Statement .invShiftRows := by unfold Statement; decide
theorem mixColumns : Statement .mixColumns := by unfold Statement; decide
theorem invMixColumns : Statement .invMixColumns := by unfold Statement; decide
theorem addRoundKey : Statement .addRoundKey := by unfold Statement; decide
theorem keySched (k : KeySize) : Statement (.keySched k) := by cases k <;> unfold Statement <;> decide
theorem blockEnc (k : KeySize) : Statement (.blockEnc k) := by cases k <;> unfold Statement <;> decide
theorem blockDec (k : KeySize) : Statement (.blockDec k) := by cases k <;> unfold Statement <;> decide
theorem ecbEnc (k : KeySize) : Statement (.ecbEnc k) := by cases k <;> unfold Statement <;> decide
theorem ecbDec (k : KeySize) : Statement (.ecbDec k) := by cases k <;> unfold Statement <;> decide
theorem cbcEnc (k : KeySize) : Statement (.cbcEnc k) := by cases k <;> unfold Statement <;> decide
theorem cbcDec (k : KeySize) : Statement (.cbcDec k) := by cases k <;> unfold Statement <;> decide
theorem ecbEncPad (k : KeySize) : Statement (.ecbEncPad k) := by cases k <;> unfold Statement <;> decide
theorem ecbDecUnpad (k : KeySize) : Statement (.ecbDecUnpad k) := by cases k <;> unfold Statement <;> decide
theorem cbcEncPad (k : KeySize) : Statement (.cbcEncPad k) := by cases k <;> unfold Statement <;> decide
theorem cbcDecUnpad (k : KeySize) : Statement (.cbcDecUnpad k) := by cases k <;> unfold Statement <;> decide
theorem pad : Statement .pad := by unfold Statement; decide
theorem unpad : Statement .unpad := by unfold Statement; decide

end Sys2Proof.Laws.Fields
end

