-- ==== Sys2Proof/Tests/Slice0.lean ====
section
/-! SUPPORT. Tests: the well-formedness check, the decoding of words written out from 30_encoding.md R101 and R115, one
step of each command against a vector of the spec, and a witness for the hypotheses of each obligation. -/

namespace Sys2Proof.Tests

open Sys2Proof.Machine Sys2Proof.Safety

/-! ### Small states -/

/-- The core running `i`, with an eager host that offers nothing, `BSZ` = 16 and the workers idle. -/
def running (i : Instr) : State :=
  let s := State.reset
  { s with top := .run, latch := { s.latch with cmdr := encode i, bsz := 16 } }

/-- The idle core, with the word `w` and these operands on the command port. -/
def offering (w : BitVec 8) (blksz : BitVec 8) : State :=
  let s := State.reset
  { s with env := { s.env with cmdValid := true, job := { Job.blank with cmd := w, key := 1, blk := 2, blksz := blksz } } }

/-- The host makes these offers on `CH_IN`. -/
def feeding (offers : List Offer) (s : State) : State := { s with env := { s.env with input := offers } }

/-- The host's move at the next edge. -/
def moving (m : Move) (s : State) : State := { s with env := { s.env with moves := [m] } }

/-- A host that takes nothing at the next edge. -/
def unready (s : State) : State := moving { Move.eager with outReady := false, outTermReady := false } s

/-- The round-key store holds the schedule of a key. -/
def keyed (key : Block) (s : State) : State :=
  { s with latch := { s.latch with key := key }, sched := keyExpand .k128 key s.sched }

/-- ONESHOT in `OST` with the indices given. -/
def oneshotAt (st : OneshotState) (oi : BitVec 4) (oj : BitVec 5) (s : State) : State :=
  { s with one := { oi := oi, oj := oj, ost := st } }

/-- ENGINE in `EST` with the counts given. -/
def engineAt (st : EngineState) (icnt ocnt : BitVec 5) (s : State) : State :=
  { s with eng := { s.eng with est := st, icnt := icnt, ocnt := ocnt } }

/-- PAD in `PST` with the counts given. -/
def padAt (st : PadState) (pcnt pout : BitVec 8) (plast : Bool) (s : State) : State :=
  { s with pad := { s.pad with pst := st, pcnt := pcnt, pout := pout, plast := plast } }

/-- UNPAD in `UST` with the counts given. -/
def unpadAt (st : UnpadState) (ucnt uout ulim : BitVec 8) (ulast : Bool) (s : State) : State :=
  { s with unp := { s.unp with ust := st, ucnt := ucnt, uout := uout, ulim := ulim, ulast := ulast } }

/-- UNPAD's buffer holds a block of sixteen bytes. -/
def holding (x : Block) (s : State) : State :=
  { s with unp := { s.unp with ubuf := Vector.ofFn fun i : Fin 255 => readAt x i.val } }

/-- ENGINE with the input block, the feedback and the key given, about to transform. -/
def transforming (i : Instr) (key x fb : Block) : State :=
  let s := keyed key (engineAt .xform 16 0 (running i))
  { s with eng := { s.eng with ibuf := x, fb := fb } }

/-- What a meaning leaves, seen through `f`. -/
def after {α : Type} (o : Host.Outcome State Fault Refusal) (f : State → α) : Option α :=
  match o with
  | .next t => some (f t)
  | .fault _ | .refused _ => none

/-- ONESHOT about to compute, with the operands given. -/
def computing (i : Instr) (key blk : BitVec 128) : State :=
  let s := oneshotAt .compute 0 0 (running i)
  { s with latch := { s.latch with key := blockOfPort key, blk := blockOfPort blk } }

/-! ### Well-formedness: the one ill-formed operand, `blksz` = 0 (R109) -/

theorem test_wf_pad : Instr.wellFormed 0 .pad = false := by decide
theorem test_wf_unpad : Instr.wellFormed 0 .unpad = false := by decide
theorem test_wf_ecbEncPad : Instr.wellFormed 0 (.ecbEncPad .k128) = false := by decide
theorem test_wf_ecbDecUnpad : Instr.wellFormed 0 (.ecbDecUnpad .k192) = false := by decide
theorem test_wf_cbcEncPad : Instr.wellFormed 0 (.cbcEncPad .k256) = false := by decide
theorem test_wf_cbcDecUnpad : Instr.wellFormed 0 (.cbcDecUnpad .k3) = false := by decide
theorem test_wf_accepts : Instr.wellFormed 1 .pad = true ∧ Instr.wellFormed 255 (.cbcDecUnpad .k128) = true ∧
    Instr.wellFormed 0 (.cbcDec .k128) = true ∧ Instr.wellFormed 0 .subBytes = true := by decide

/-! ### Decoding: words `KSZ PADEN DIR OP` written out from R101 and R115 -/

theorem test_decode_subBytes : decode 0b00_0_0_0000 = some .subBytes := by decide
theorem test_decode_invSubBytes : decode 0b00_0_1_0000 = some .invSubBytes := by decide
theorem test_decode_shiftRows : decode 0b00_0_0_0001 = some .shiftRows := by decide
theorem test_decode_invShiftRows : decode 0b00_0_1_0001 = some .invShiftRows := by decide
theorem test_decode_mixColumns : decode 0b00_0_0_0010 = some .mixColumns := by decide
theorem test_decode_invMixColumns : decode 0b00_0_1_0010 = some .invMixColumns := by decide
theorem test_decode_addRoundKey : decode 0b00_0_0_0011 = some .addRoundKey := by decide
theorem test_decode_keySched : decode 0b01_0_0_0100 = some (.keySched .k192) := by decide
theorem test_decode_blockEnc : decode 0b00_0_0_0101 = some (.blockEnc .k128) := by decide
theorem test_decode_blockDec : decode 0b10_0_1_0101 = some (.blockDec .k256) := by decide
theorem test_decode_ecbEnc : decode 0b11_0_0_0110 = some (.ecbEnc .k3) := by decide
theorem test_decode_ecbDec : decode 0b00_0_1_0110 = some (.ecbDec .k128) := by decide
theorem test_decode_cbcEnc : decode 0b00_0_0_0111 = some (.cbcEnc .k128) := by decide
theorem test_decode_cbcDec : decode 0b01_0_1_0111 = some (.cbcDec .k192) := by decide
theorem test_decode_ecbEncPad : decode 0b00_1_0_0110 = some (.ecbEncPad .k128) := by decide
theorem test_decode_ecbDecUnpad : decode 0b11_1_1_0110 = some (.ecbDecUnpad .k3) := by decide
theorem test_decode_cbcEncPad : decode 0b10_1_0_0111 = some (.cbcEncPad .k256) := by decide
theorem test_decode_cbcDecUnpad : decode 0b00_1_1_0111 = some (.cbcDecUnpad .k128) := by decide
theorem test_decode_pad : decode 0b00_0_0_1000 = some .pad := by decide
theorem test_decode_unpad : decode 0b00_0_1_1000 = some .unpad := by decide

/-- Reserved words of R109: OP 9 and 15; PADEN with BLOCK and PKCS7; DIR with ARK and KEYSCHED; KSZ with SUB and PKCS7. -/
theorem test_decode_reserved : ∀ w ∈ ([0b00_0_0_1001, 0b00_0_0_1111, 0b00_1_0_0101, 0b00_1_0_1000, 0b00_0_1_0011,
    0b00_0_1_0100, 0b01_0_0_0000, 0b11_0_1_1000] : List (BitVec 8)), decode w = none := by decide

theorem test_decodeTableWord : decodeTableWord 8 0x36 = some (.ecbDecUnpad .k128) ∧ decodeTableWord 8 0x09 = none ∧
    decodeTableWord 8 0x106 = none ∧ decodeTableWord 16 0x06 = none := by decide

/-- The word of every row of the opcode table, placed with `withFetchWord` right after reset, is accepted by the next
step: `TOP` is RUN and `CMDR` holds it. -/
theorem test_fetch_rows : ∀ w ∈ [0x00, 0x10, 0x01, 0x11, 0x02, 0x12, 0x03, 0x04, 0x05, 0x15, 0x06, 0x16, 0x07, 0x17, 0x26,
    0x36, 0x27, 0x37, 0x08, 0x18], after (step (State.reset.withFetchWord 8 w)) (fun t => (t.top, t.latch.cmdr.toNat)) =
      some (Top.run, w) := by decide

/-! ### One step of each command against the spec's vectors (95_test_vectors.md V3, V10, S4, V30 to V33; 96 V40 to V43) -/

theorem test_subBytes : after (exec .subBytes (computing .subBytes 0 0x000102030405060708090a0b0c0d0e0f))
    (fun t => portOfBlock t.core.sreg) = some 0x637c777bf26b6fc53001672bfed7ab76 := by decide +kernel
theorem test_invSubBytes : after (exec .invSubBytes (computing .invSubBytes 0 0x000102030405060708090a0b0c0d0e0f))
    (fun t => portOfBlock t.core.sreg) = some 0x52096ad53036a538bf40a39e81f3d7fb := by decide +kernel
theorem test_shiftRows : after (exec .shiftRows (computing .shiftRows 0 0x000102030405060708090a0b0c0d0e0f))
    (fun t => portOfBlock t.core.sreg) = some 0x00050a0f04090e03080d02070c01060b := by decide +kernel
theorem test_invShiftRows : after (exec .invShiftRows (computing .invShiftRows 0 0x000102030405060708090a0b0c0d0e0f))
    (fun t => portOfBlock t.core.sreg) = some 0x000d0a0704010e0b0805020f0c090603 := by decide +kernel
theorem test_mixColumns : after (exec .mixColumns (computing .mixColumns 0 0x000102030405060708090a0b0c0d0e0f))
    (fun t => portOfBlock t.core.sreg) = some 0x02070005060304010a0f080d0e0b0c09 := by decide +kernel
theorem test_invMixColumns : after (exec .invMixColumns (computing .invMixColumns 0 0x000102030405060708090a0b0c0d0e0f))
    (fun t => portOfBlock t.core.sreg) = some 0x0a0f080d0e0b0c090207000506030401 := by decide +kernel
theorem test_addRoundKey : after (exec .addRoundKey (computing .addRoundKey 0xffffffffffffffffffffffffffffffff
    0x000102030405060708090a0b0c0d0e0f)) (fun t => portOfBlock t.core.sreg) =
      some 0xfffefdfcfbfaf9f8f7f6f5f4f3f2f1f0 := by decide +kernel

/-- R187: of the key "Thats my Kung Fu", the first byte of round key 1 is 0xE2; after the last byte of round key 10 the
terminal comes. -/
theorem test_keySched : let s := keyed (blockOfPort 0x5468617473206d79204b756e67204675) (running (.keySched .k128))
    after (exec (.keySched .k128) (oneshotAt .emit 1 0 s)) (·.env.taken) = some [.data 0xe2] ∧
    after (exec (.keySched .k128) (oneshotAt .emit 10 15 s)) (fun t => (t.env.taken, t.one.ost)) =
      some ([.data 0x26], .term .eos) := by decide +kernel
/-- R187: with `KSZ` = 2 KEYSCHED delivers nothing and `End`. -/
theorem test_keySched_empty : after (exec (.keySched .k256) (oneshotAt .compute 3 3 (running (.keySched .k256))))
    (·.one.ost) = some (.term .eos) := by decide

theorem test_blockEnc : after (exec (.blockEnc .k128) (keyed (blockOfPort 0x2b7e151628aed2a6abf7158809cf4f3c)
    (computing (.blockEnc .k128) 0 0x6bc1bee22e409f96e93d7e117393172a))) (fun t => portOfBlock t.core.sreg) =
      some 0x3ad77bb40d7a3660a89ecaf32466ef97 := by decide +kernel
theorem test_blockEnc_noSchedule : after (exec (.blockEnc .k192) (computing (.blockEnc .k192) 0 0)) (·.one.ost) =
    some (.term (.fail .ise)) := by decide
theorem test_blockDec : after (exec (.blockDec .k128) (keyed (blockOfPort 0x2b7e151628aed2a6abf7158809cf4f3c)
    (computing (.blockDec .k128) 0 0x3ad77bb40d7a3660a89ecaf32466ef97))) (fun t => portOfBlock t.core.sreg) =
      some 0x6bc1bee22e409f96e93d7e117393172a := by decide +kernel

theorem test_ecbEnc : after (exec (.ecbEnc .k128) (transforming (.ecbEnc .k128)
    (blockOfPort 0x2b7e151628aed2a6abf7158809cf4f3c) (blockOfPort 0x6bc1bee22e409f96e93d7e117393172a) zeroBlock))
    (fun t => portOfBlock t.eng.obuf) = some 0x3ad77bb40d7a3660a89ecaf32466ef97 := by decide +kernel
/-- R236: a clean end after five bytes is LengthContractError. -/
theorem test_ecbEnc_short : after (exec (.ecbEnc .k128) (feeding [.term false] (engineAt .fill 5 0 (running (.ecbEnc .k128)))))
    (·.eng.est) = some (.term (.fail .lce)) := by decide
theorem test_ecbDec : after (exec (.ecbDec .k128) (transforming (.ecbDec .k128)
    (blockOfPort 0x2b7e151628aed2a6abf7158809cf4f3c) (blockOfPort 0x3ad77bb40d7a3660a89ecaf32466ef97) zeroBlock))
    (fun t => portOfBlock t.eng.obuf) = some 0x6bc1bee22e409f96e93d7e117393172a := by decide +kernel
/-- R239, second block of its example: the feedback is the first output block, and becomes the second. -/
theorem test_cbcEnc : after (exec (.cbcEnc .k128) (transforming (.cbcEnc .k128)
    (blockOfPort 0x2b7e151628aed2a6abf7158809cf4f3c) (blockOfPort 0xae2d8a571e03ac9c9eb76fac45af8e51)
    (blockOfPort 0x7649abac8119b246cee98e9b12e9197d))) (fun t => (portOfBlock t.eng.obuf, portOfBlock t.eng.fb)) =
      some (0x5086cb9b507219ee95db113a917678b2, 0x5086cb9b507219ee95db113a917678b2) := by decide +kernel
/-- R240, second block of its example: the feedback becomes the input block. -/
theorem test_cbcDec : after (exec (.cbcDec .k128) (transforming (.cbcDec .k128)
    (blockOfPort 0x2b7e151628aed2a6abf7158809cf4f3c) (blockOfPort 0x5086cb9b507219ee95db113a917678b2)
    (blockOfPort 0x7649abac8119b246cee98e9b12e9197d))) (fun t => (portOfBlock t.eng.obuf, portOfBlock t.eng.fb)) =
      some (0xae2d8a571e03ac9c9eb76fac45af8e51, 0x5086cb9b507219ee95db113a917678b2) := by decide +kernel

/-- R275: PAD hands its byte to ENGINE over `CH_A`. As in the ECB.ENC.PAD.K192 vector with an empty input
(96_test_vectors_pipeline.md), the last byte of the padding block moves PAD to `P_TERM(End)` (R262; log 18). -/
theorem test_ecbEncPad_link : after (exec (.ecbEncPad .k192) (engineAt .fill 15 0 (padAt .flush 16 15 true
    (running (.ecbEncPad .k192))))) (fun t => (t.eng.est, t.pad.pst)) = some (.xform, .term .eos) := by decide
/-- R276, "20 input bytes": the engine's LengthContractError reaches UNPAD over `CH_B`. -/
theorem test_ecbDecUnpad_link : after (exec (.ecbDecUnpad .k128) (engineAt (.term (.fail .lce)) 4 0 (unpadAt .fill 16 0 0 false
    (running (.ecbDecUnpad .k128))))) (fun t => (t.eng.est, t.unp.ust)) = some (.done, .term (.fail .lce)) := by decide
/-- R277: the host's failure reaches PAD while ENGINE drains a block, both at one edge. -/
theorem test_cbcEncPad_edge : after (exec (.cbcEncPad .k128) (feeding [.term true] (engineAt .drain 0 3 (padAt .fill 2 0 false
    (running (.cbcEncPad .k128)))))) (fun t => (t.eng.ocnt, t.pad.pst, t.env.taken)) =
      some (4, .term (.fail .te), [.data 0]) := by decide
/-- R278: the block that follows a full one makes UNPAD release it. -/
theorem test_cbcDecUnpad_link : after (exec (.cbcDecUnpad .k128) (engineAt .drain 0 0 (unpadAt .fill 16 0 0 false
    (running (.cbcDecUnpad .k128))))) (fun t => (t.eng.ocnt, t.unp.ust, t.unp.ulim, t.unp.uhave)) =
      some (1, .flush, 16, true) := by decide

/-- V40: five bytes, then the clean end, with `BSZ` = 16: eleven bytes 0x0B. -/
theorem test_pad_end : after (exec .pad (feeding [.term false] (padAt .fill 5 0 false (running .pad))))
    (fun t => (readAt t.pad.pbuf 4, readAt t.pad.pbuf 5, readAt t.pad.pbuf 15, readAt t.pad.pbuf 16, t.pad.pcnt, t.pad.plast)) =
      some (0, 0x0b, 0x0b, 0, 16, true) := by decide +kernel
/-- R262: the last byte of a whole interior block leads back to `P_FILL`. -/
theorem test_pad_flush : after (exec .pad (padAt .flush 16 15 false (running .pad))) (fun t => (t.pad.pst, t.pad.pcnt)) =
    some (.fill, 0) := by decide
/-- V41: `68656c6c6f0b...0b` is five bytes of data; with a last byte 0x11 it is PaddingAmountError. -/
theorem test_unpad_end : after (exec .unpad (feeding [.term false] (unpadAt .fill 16 0 0 false (holding
    (blockOfPort 0x68656c6c6f0b0b0b0b0b0b0b0b0b0b0b) (running .unpad))))) (fun t => (t.unp.ulim, t.unp.ust)) =
      some (5, .flush) := by decide +kernel
theorem test_unpad_bad : after (exec .unpad (feeding [.term false] (unpadAt .fill 16 0 0 false (holding
    (blockOfPort 0x59454c4c4f57205355424d4152494e11) (running .unpad))))) (·.unp.ust) =
      some (.term (.fail .pae)) := by decide +kernel

/-! ### Witnesses: for each obligation with hypotheses, states and operands that meet them, clause by clause -/

theorem witness_DecodingAndEncodingAgree : decode 0xF7 = some (.cbcDecUnpad .k3) ∧ decode 0x00 = some .subBytes := by decide

/-- A legal command offered; a reserved word; a legal word with a block size that makes it reserved. -/
theorem witness_ExactlyTheLegalCommandsAreAccepted : ∀ s ∈ [offering 0x08 1, offering 0x09 1, offering 0x36 0],
    s.top = .idle ∧ (inPorts s).rst = false ∧ (inPorts s).abort = false ∧ (inPorts s).cmdValid = true := by decide
theorem witness_ExactlyTheLegalCommandsAreAccepted_words :
    (decode (inPorts (offering 0x08 1)).cmd = some .pad ∧ blockSizeOk .pad (inPorts (offering 0x08 1)).blksz = true) ∧
    decode (inPorts (offering 0x09 1)).cmd = none ∧
    (decode (inPorts (offering 0x36 0)).cmd = some (.ecbDecUnpad .k128) ∧
      blockSizeOk (.ecbDecUnpad .k128) (inPorts (offering 0x36 0)).blksz = false) ∧
    padenField 0x27 = 1 ∧ (opField 0x03).toNat = 3 ∧ (opField 0x44).toNat = 4 ∧ (opField 0x08).toNat = 8 := by decide

theorem witness_StepRunsTheDecodedCommand :
    let s := offering 0x02 0
    let r := running (.cbcEnc .k3)
    let q := State.reset
    ((inPorts q).rst = false ∧ (inPorts q).abort = false ∧ q.top = .idle ∧ (inPorts q).cmdValid = false) ∧
    ((inPorts s).rst = false ∧ (inPorts s).abort = false ∧ s.top = .idle ∧ (inPorts s).cmdValid = true ∧
      decode (inPorts s).cmd = some .mixColumns) ∧
    ((inPorts r).rst = false ∧ (inPorts r).abort = false ∧ r.top = .run ∧ decode r.latch.cmdr = some (.cbcEnc .k3)) := by
  decide

theorem witness_MultiplicationIsAField : (0xFF : Byte) ≠ 0 ∧ (1 : Byte) ≠ 0 := by decide
theorem witness_SboxTablesAreInverseAndAffine : gmul 0x53 0xCA = 1 ∧ gmul 1 1 = 1 := by decide +kernel

/-- The hypotheses of `computesBlock`, for each of the seven primitives. -/
theorem witness_computesBlock : ∀ i ∈ [Instr.subBytes, .invSubBytes, .shiftRows, .invShiftRows, .mixColumns, .invMixColumns,
    .addRoundKey], (computing i 1 2).top = .run ∧ (computing i 1 2).one.ost = .compute ∧
      (currentMove (computing i 1 2)).go = true := by decide

/-- Equal bytes in one block; a block of equal columns whose columns differ inside; a column of equal bytes; equal lanes of
two different blocks. -/
theorem witness_lanes :
    let x := blockOfPort 0x01020304010203040102030401020304
    let y := blockOfPort 0x01020304ffffffffffffffffffffffff
    readAt x 0 = readAt x 4 ∧ (∀ i < 16, readAt x i = readAt x (i % 4)) ∧
    (∀ r < 4, readAt y (r + 4 * 3) = readAt y (4 * 3)) ∧ (∀ j < 4, readAt x (4 * 0 + j) = readAt y (4 * 0 + j)) ∧
    readAt x 0 = readAt y 0 ∧ readAt x 15 ≠ readAt y 15 := by decide +kernel

theorem witness_ScheduleFollowsTheRecurrence : (4 ≤ 43 ∧ 43 < 44 ∧ 43 % 4 ≠ 0) ∧ (4 ≤ 5 ∧ 5 < 44 ∧ 5 % 4 ≠ 0) ∧
    (4 ≤ 4 ∧ 4 < 44 ∧ 4 % 4 = 0) ∧ (4 ≤ 40 ∧ 40 < 44 ∧ 40 % 4 = 0) := by decide
theorem witness_OtherKeySizesGiveTheEmptySchedule : KeySize.k3 ≠ .k128 ∧ KeySize.k128 = .k128 := by decide

/-- ONESHOT running KEYSCHED: about to compute with a schedule and without; at the first, at a last and at the very last
byte, with a host that takes and one that does not; offering its terminal. -/
theorem witness_KeySchedSendsTheRoundKeysInOrder :
    let s := keyed zeroBlock (running (.keySched .k128))
    (∀ t ∈ [oneshotAt .compute 0 0 s, oneshotAt .compute 9 9 (running (.keySched .k3))],
      t.top = .run ∧ t.one.ost = .compute ∧ (currentMove t).go = true) ∧
    (∀ t ∈ [oneshotAt .emit 0 0 s, oneshotAt .emit 3 15 s, oneshotAt .emit 10 15 s, unready (oneshotAt .emit 10 15 s)],
      t.top = .run ∧ t.one.ost = .emit ∧ t.sched.rkn = 11 ∧ t.one.oi < 11 ∧ t.one.oj < 16) ∧
    ∀ t ∈ [oneshotAt (.term .eos) 11 0 s, unready (oneshotAt (.term .eos) 11 0 s)],
      t.top = .run ∧ t.one.ost = .term .eos := by decide

theorem witness_SequencerLines : (1 : BitVec 4) ≤ 1 ∧ (1 : BitVec 4) ≤ 10 ∧ (1 : BitVec 4) < 10 ∧ (1 : BitVec 4) ≤ 10 ∧
    (10 : BitVec 4) ≤ 10 ∧ ¬(10 : BitVec 4) < 10 := by decide

theorem witness_BlockCommandsRunInOneshot :
    let s := keyed zeroBlock (computing (.blockEnc .k128) 1 2)
    let r := computing (.blockDec .k256) 1 2
    (s.top = .run ∧ s.one.ost = .compute ∧ (currentMove s).go = true ∧ s.sched.rkn = 11) ∧
    (r.top = .run ∧ r.one.ost = .compute ∧ (currentMove r).go = true ∧ r.sched.rkn ≠ 11) := by decide

/-- The hypotheses of `sendsBlock`. -/
theorem witness_sendsBlock :
    .subBytes ∈ primitiveCommands ∧ .addRoundKey ∈ primitiveCommands ∧
    (∀ t ∈ [oneshotAt .emit 0 0 (running .subBytes), oneshotAt .emit 0 15 (running .subBytes),
      unready (oneshotAt .emit 0 15 (running .subBytes))], t.top = .run ∧ t.one.ost = .emit ∧ t.one.oj < 16) ∧
    (oneshotAt (.term (.fail .ise)) 0 0 (running (.blockDec .k3))).one.ost = .term (.fail .ise) := by decide

/-- ENGINE filling, with room for one byte and for sixteen, and each kind of item arriving. -/
theorem witness_EngineGathersSixteenBytes :
    let s := running (.ecbEnc .k128)
    (∀ t ∈ [engineAt .fill 0 0 s, engineAt .fill 15 0 s], t.top = .run ∧ t.eng.est = .fill ∧ t.eng.icnt < 16) ∧
    arrivingItem s = none ∧ arrivingItem (feeding [.byte 7] s) = some (.data 7) ∧
    arrivingItem (feeding [.term false] s) = some (.term .eos) ∧
    arrivingItem (feeding [.term true] s) = some (.term (.fail .te)) := by decide
theorem witness_EngineTransformsOneBlock :
    let s := transforming (.cbcDec .k128) zeroBlock zeroBlock zeroBlock
    let r := engineAt .xform 16 0 (running (.cbcDec .k192))
    (s.top = .run ∧ s.eng.est = .xform ∧ (currentMove s).go = true ∧ s.sched.rkn = 11) ∧
    (r.top = .run ∧ r.eng.est = .xform ∧ (currentMove r).go = true ∧ r.sched.rkn ≠ 11) := by decide
theorem witness_EngineDrainsThenFillsAgain :
    let s := running (.ecbDec .k128)
    (∀ t ∈ [engineAt .drain 0 0 s, engineAt .drain 0 15 s, unready (engineAt .drain 0 15 s)],
      t.top = .run ∧ t.eng.est = .drain ∧ t.eng.ocnt < 16) ∧
    (engineAt (.term (.fail .lce)) 3 0 s).eng.est = .term (.fail .lce) ∧ (engineAt .done 0 0 s).eng.est = .done := by decide

/-- PAD filling at both ends of its range; flushing an interior and a final block at both ends; offering; done. -/
theorem witness_PadFollowsItsControlTable :
    let s := running .pad
    (∀ t ∈ [padAt .fill 0 0 false s, padAt .fill 15 0 false s], t.top = .run ∧ t.pad.pst = .fill ∧ t.pad.pcnt < t.latch.bsz) ∧
    (∀ t ∈ [padAt .flush 16 0 false s, padAt .flush 16 15 false s, padAt .flush 16 15 true s,
      unready (padAt .flush 16 15 true s)], t.top = .run ∧ t.pad.pst = .flush ∧ t.pad.pout < t.latch.bsz) ∧
    (padAt (.term .eos) 16 16 true s).pad.pst = .term .eos ∧ (padAt .done 16 16 true s).pad.pst = .done := by decide

/-- UNPAD filling at both ends of its range, with each kind of item arriving. -/
theorem witness_UnpadFollowsItsControlTable_fill :
    let s := running .unpad
    (∀ t ∈ [unpadAt .fill 0 0 0 false s, unpadAt .fill 15 0 0 false s, unpadAt .fill 16 0 0 false s],
      t.top = .run ∧ t.unp.ust = .fill ∧ t.unp.ucnt ≤ t.latch.bsz) ∧
    arrivingItem s = none ∧ arrivingItem (feeding [.byte 7] s) = some (.data 7) ∧
    arrivingItem (feeding [.term false] s) = some (.term .eos) ∧
    arrivingItem (feeding [.term true] s) = some (.term (.fail .te)) := by decide
/-- A full held block whose padding is valid, of one byte and of the whole block, and one whose padding is not. -/
theorem witness_UnpadFollowsItsControlTable_end :
    let s := unpadAt .fill 16 0 0 false (running .unpad)
    let n := fun t : State => readAt t.unp.ubuf (t.latch.bsz.toNat - 1)
    let valid := fun t : State => n t ≠ 0 ∧ n t ≤ t.latch.bsz ∧
      ∀ i < t.latch.bsz.toNat, t.latch.bsz.toNat - (n t).toNat ≤ i → readAt t.unp.ubuf i = n t
    (∀ t ∈ [holding (blockOfPort 0x01) s, holding (blockOfPort 0x10101010101010101010101010101010) s],
      t.unp.ucnt ≠ 0 ∧ t.unp.ucnt = t.latch.bsz ∧ valid t) ∧
    ∀ t ∈ [holding (blockOfPort 0x00) s, holding (blockOfPort 0x11) s, holding (blockOfPort 0x02) s],
      t.unp.ucnt ≠ 0 ∧ t.unp.ucnt = t.latch.bsz ∧ ¬valid t := by decide +kernel
theorem witness_UnpadFollowsItsControlTable_flush :
    let s := running .unpad
    (∀ t ∈ [unpadAt .flush 16 0 16 false s, unpadAt .flush 16 15 16 false s, unpadAt .flush 16 0 1 true s,
      unready (unpadAt .flush 16 0 1 true s)],
      t.top = .run ∧ t.unp.ust = .flush ∧ t.unp.uout < t.unp.ulim ∧ t.unp.ulim ≤ t.latch.bsz) ∧
    (unpadAt (.term .eos) 16 1 1 true s).unp.ust = .term .eos ∧ (unpadAt .done 16 1 1 true s).unp.ust = .done := by decide

theorem witness_PadHandsItsItemsToTheEngine :
    let s := running (.cbcEncPad .k128)
    encrypts .cbcEnc = true ∧
    (∀ t ∈ [engineAt .fill 0 0 (padAt .flush 16 0 false s), engineAt .fill 15 0 (padAt .flush 16 15 true s),
      engineAt .fill 0 0 (padAt (.term .eos) 16 16 true s), engineAt .fill 5 0 (padAt (.term .eos) 16 16 true s),
      engineAt .fill 15 0 (padAt (.term (.fail .te)) 16 16 false s)],
      t.top = .run ∧ (currentMove t).go = true ∧ t.eng.est = .fill ∧ t.eng.icnt < 16 ∧
        (t.pad.pst = .flush ∧ t.pad.pout < t.latch.bsz ∨ t.pad.pst = .term .eos ∨ t.pad.pst = .term (.fail .te))) := by decide
theorem witness_EngineHandsItsItemsToUnpad :
    let s := running (.ecbDecUnpad .k128)
    encrypts .ecbDec = false ∧
    (∀ t ∈ [unpadAt .fill 0 0 0 false (engineAt .drain 0 0 s), unpadAt .fill 16 0 0 false (engineAt .drain 0 15 s),
      unpadAt .fill 0 0 0 false (engineAt (.term .eos) 0 0 s), unpadAt .fill 16 0 0 false (engineAt (.term .eos) 0 0 s),
      unpadAt .fill 16 0 0 false (engineAt (.term (.fail .lce)) 3 0 s)],
      t.top = .run ∧ (currentMove t).go = true ∧ t.unp.ust = .fill ∧ t.unp.ucnt ≤ t.latch.bsz ∧
        (t.eng.est = .drain ∧ t.eng.ocnt < 16 ∨ t.eng.est = .term .eos ∨ t.eng.est = .term (.fail .lce))) := by decide
theorem witness_PipelineUnitsActAsTheyDoAlone :
    let e := running (.ecbEncPad .k128)
    let d := running (.cbcDecUnpad .k128)
    (∀ t ∈ [engineAt .fill 0 0 (padAt .fill 0 0 false e), engineAt .drain 0 0 (padAt .flush 16 3 false e),
      engineAt .xform 16 0 (padAt .fill 3 0 false e)],
      t.top = .run ∧ padInBounds t = true ∧ engineInBounds t = true ∧
        (t.pad.pst = .fill ∧ t.eng.est = .fill ∨ t.eng.est ≠ .fill ∧ (t.pad.pst ≠ .fill ∨ arrivingItem t = none))) ∧
    ∀ t ∈ [engineAt .fill 15 0 (unpadAt .fill 16 0 0 false d), engineAt .xform 16 0 (unpadAt .fill 0 0 0 false d),
      engineAt .drain 0 3 (unpadAt .flush 16 0 16 false d), engineAt .fill 3 0 (unpadAt .flush 16 0 16 false d)],
      t.top = .run ∧ engineInBounds t = true ∧ unpadInBounds t = true ∧
        (t.unp.ust = .fill ∧ (t.eng.est = .fill ∨ t.eng.est = .xform) ∨
          t.unp.ust ≠ .fill ∧ (t.eng.est ≠ .fill ∨ arrivingItem t = none) ∧ t.eng.est ≠ .xform) := by decide

theorem witness_AcceptanceDoesAllItsWritesAtOnce :
    let s := offering 0x37 255
    s.top = .idle ∧ blockSizeOk (.cbcDecUnpad .k128) (inPorts s).blksz = true ∧ (inPorts s).rst = false ∧
      (inPorts s).abort = false ∧ (inPorts s).cmdValid = true ∧ decode (inPorts s).cmd = some (.cbcDecUnpad .k128) ∧
    blockSizeOk .subBytes (inPorts (offering 0x00 0)).blksz = true := by decide
theorem witness_OperandsAreTheBytesOfThePorts : (offering 0x07 0).top = .idle ∧
    exec (.cbcEnc .k128) (offering 0x07 0) = .next (acceptCommand (.cbcEnc .k128) (offering 0x07 0)) := ⟨rfl, rfl⟩
theorem witness_ZeroBlockSizeIsRefused : (offering 0x08 0).top = .idle ∧ (inPorts (offering 0x08 0)).blksz = 0 := by decide

/-- `rst` with `abort` and a command; `abort` while running and while idle. -/
theorem witness_ResetEdgeIdlesTheCore :
    (inPorts (moving { Move.eager with rst := true, abort := true } (offering 0x00 0))).rst = true := by decide
theorem witness_AbortEdgeDropsTheCommand :
    ∀ s ∈ [moving { Move.eager with abort := true } (running .pad), moving { Move.eager with abort := true } (offering 0x08 1)],
      (inPorts s).rst = false ∧ (inPorts s).abort = true ∧ ∃ t, step s = .next t := by
  intro s h
  simp only [List.mem_cons, List.not_mem_nil, or_false] at h
  rcases h with rfl | rfl <;> exact ⟨rfl, rfl, _, rfl⟩
theorem witness_OutputWiresFollowTheState :
    let s := engineAt (.term (.fail .lce)) 3 0 (running (.ecbEnc .k128))
    let r := oneshotAt .emit 3 2 (keyed zeroBlock (running (.keySched .k128)))
    (∀ q ∈ [State.reset, s, r], (inPorts q).rst = false ∧ (inPorts q).abort = false) ∧ State.reset.top = .idle ∧
    (s.top = .run ∧ decode s.latch.cmdr = some (.ecbEnc .k128) ∧ (workersOf (.ecbEnc .k128)).head? = some .engine ∧
      (workersOf (.ecbEnc .k128)).getLast? = some .engine ∧ workerTerminal .engine s = some (.fail .lce)) ∧
    (r.top = .run ∧ decode r.latch.cmdr = some (.keySched .k128) ∧ (workersOf (.keySched .k128)).head? = some .oneshot ∧
      (workersOf (.keySched .k128)).getLast? = some .oneshot ∧ workerSending .oneshot r = true) := by decide
theorem witness_HostOffersArriveAsItems :
    ∀ offers ∈ [[], [.byte 0], [.term false], [.term true], [.both 1 true, .byte 2]],
      (currentMove (feeding offers (running .pad))).offerIn = true ∧ (feeding offers (running .pad)).env.input = offers := by
  decide

/-- PAD receiving while ENGINE sends: an edge on which two parts fall. -/
theorem witness_StepsOfOneEdgeCommute :
    let s := feeding [.byte 7] (engineAt .drain 0 3 (padAt .fill 2 0 false (running (.cbcEncPad .k128))))
    s.top = .run ∧ (pipelineOf (.cbcEncPad .k128)).inBounds s = true ∧
      [EdgePart.output, .inner, .input].Perm [.inner, .input, .output] := by decide
theorem witness_OperandWiresAreNotReadWhileRunning : (running .unpad).top = .run := by decide
theorem witness_OnlyTheOwnersRegistersChange :
    let s := padAt .done 0 0 false (running .pad)
    s.top = .run ∧ exec .pad s = .next s ∧ .oneshot ∉ workersOf .pad ∧ .engine ∉ workersOf .pad ∧ .unpad ∉ workersOf .pad ∧
      .pad ∉ workersOf .unpad := ⟨rfl, rfl, by decide, by decide, by decide, by decide⟩
theorem witness_EcbIgnoresTheFeedbackRegister : (running (.ecbDec .k128)).top = .run ∧
    Instr.ecbDec .k128 ∈ [.ecbEnc .k128, .ecbDec .k128, .ecbEncPad .k128, .ecbDecUnpad .k128] := by decide

/-- The step that delivers a terminal, the step that accepts, and the steps of reset and abort. -/
theorem witness_TopFollowsAcceptanceAndTerminal :
    let s := padAt (.term .eos) 16 16 true (running .pad)
    let r := moving { Move.eager with abort := true } s
    step s = .next (closeEdge (hostTook (.term .eos) (padSent s))) ∧
    (s.top = .run ∧ (inPorts s).rst = false ∧ (inPorts s).abort = false) ∧
    (step (offering 0x08 1) = .next (closeEdge (acceptCommand .pad (offering 0x08 1))) ∧ (offering 0x08 1).top = .idle) ∧
    (step r = .next (closeEdge (abortEdge r)) ∧ (inPorts r).abort = true) :=
  ⟨rfl, by decide, ⟨rfl, rfl⟩, ⟨rfl, rfl⟩⟩
theorem witness_NothingFollowsATerminal :
    let s := unready (padAt (.term .eos) 16 16 true (running .pad))
    let r := padAt .done 16 16 true (running .pad)
    (step s = .next (closeEdge s) ∧ s.top = .run ∧ (inPorts s).rst = false ∧ (inPorts s).abort = false ∧
      workerTerminal .pad s = some .eos) ∧
    (step r = .next (closeEdge r) ∧ r.top = .run ∧ workerDone .pad r = true) :=
  ⟨⟨rfl, by decide, by decide, by decide, by decide⟩, ⟨rfl, by decide, by decide⟩⟩

/-- A running state that meets the invariant: PAD offering its terminal. -/
theorem witness_Inv : Inv (padAt (.term .eos) 16 16 true (running .pad)) where
  keyCount := .inl rfl
  running := fun _ => ⟨.pad, {
    latched := rfl
    blockSize := rfl
    wired := by intro w; cases w <;> decide
    unfinished := by intro w h; cases h; rfl
    keyCount := by decide
    keys := by intro h; exact absurd h (by decide)
    bounds := rfl
    fullBlock := by intro h; exact absurd h (by decide)
    emptyBlock := by intro h; exact absurd h (by decide)
    validSchedule := by intro h; exact absurd h (by decide)
    terminals := by intro w t h; cases w <;> cases h; decide }⟩
theorem witness_EveryStepKeepsTheInvariant :
    let s := padAt (.term .eos) 16 16 true (running .pad)
    Inv s ∧ step s = .next (closeEdge (hostTook (.term .eos) (padSent s))) := ⟨witness_Inv, rfl⟩
theorem witness_NoStepFaultsUnderTheInvariant :
    let s := padAt (.term .eos) 16 16 true (running .pad)
    Inv s ∧ s.top = .run := ⟨witness_Inv, rfl⟩
theorem witness_OnlyReportableTerminalsAreDelivered :
    let s := padAt (.term .eos) 16 16 true (running .pad)
    let t := closeEdge (hostTook (.term .eos) (padSent s))
    Inv s ∧ s.top = .run ∧ decode s.latch.cmdr = some .pad ∧ step s = .next t ∧
      t.env.taken = s.env.taken ++ [.term .eos] := ⟨witness_Inv, rfl, by decide, rfl, rfl⟩

/-- Block sizes at both ends of the range, and a longer multiple of the block size. -/
theorem witness_blockSizes : 1 ≤ 1 ∧ 1 ≤ 255 ∧ 255 ≤ 255 ∧ ([7] : List Byte).length < 255 ∧ 255 % 255 = 0 := by decide
theorem witness_ChainingModesInvert : (List.replicate 32 (7 : Byte)).length % 16 = 0 ∧
    blockOf (List.replicate 32 7) 0 = blockOf (List.replicate 32 7) 1 := by decide +kernel

/-- A host that offers `i` with the stream `7`, clean end, and keeps offering and taking. -/
def offeringJob (i : Instr) : State :=
  let s := State.reset
  let j := { Job.blank with cmd := encode i, blksz := 16, feed := offersOf [7] false }
  { s with env := { s.env with cmdValid := true, job := j } }
theorem witness_Offered (i : Instr) (h : blockSizeOk i 16 = true) :
    Offered i [7] false (offeringJob i) ∧ willing (offeringJob i) :=
  ⟨⟨rfl, rfl, rfl, h, rfl, rfl, rfl, by simp [undisturbed, offeringJob, State.reset, Env.quiet, Move.eager]⟩, rfl, rfl, rfl, rfl⟩
theorem witness_OneshotCommandsDeliverTheirStream : workersOf (.blockEnc .k128) = [.oneshot] ∧
    Offered (.blockEnc .k128) [7] false (offeringJob (.blockEnc .k128)) ∧ willing (offeringJob (.blockEnc .k128)) :=
  ⟨rfl, witness_Offered _ rfl⟩
theorem witness_PadDeliversItsStream : Offered .pad [7] false (offeringJob .pad) ∧ willing (offeringJob .pad) :=
  witness_Offered _ rfl
theorem witness_UnpadDeliversItsStream : Offered .unpad [7] false (offeringJob .unpad) ∧ willing (offeringJob .unpad) :=
  witness_Offered _ rfl
theorem witness_ChainingCommandsDeliverTheirStream : Offered (chainCommand .cbcDec .k3) [7] false
    (offeringJob (chainCommand .cbcDec .k3)) ∧ willing (offeringJob (chainCommand .cbcDec .k3)) := witness_Offered _ rfl
theorem witness_PaddedPipelinesDeliverTheComposition : Offered (paddedCommand .cbcEnc .k128) [7] false
    (offeringJob (paddedCommand .cbcEnc .k128)) ∧ willing (offeringJob (paddedCommand .cbcEnc .k128)) := witness_Offered _ rfl

/-- Two idle cores with the same host and different residue. -/
theorem witness_ResidueIsUnobservable :
    let s := offering 0x08 16
    let s' := engineAt .idle 9 9 (padAt .idle 5 5 true s)
    s.top = .idle ∧ s'.top = .idle ∧ s'.env = s.env ∧ s'.pad.pcnt ≠ s.pad.pcnt := by decide

end Sys2Proof.Tests
end

section
/-! What a running command's workers leave alone, and when `TOP` changes (10_state.md R21, R38). -/

namespace Sys2Proof.Machine

/-! ### What the workers may write (R38) -/

/-- From `s` to `t` only the registers of the workers and of the block core differ: the top control, the latches, the
round-key store, the host and the edge count are those of `s`. -/
def WritesWorkersOnly (s t : State) : Prop :=
  t = { s with core := t.core, one := t.one, eng := t.eng, pad := t.pad, unp := t.unp }

namespace WritesWorkersOnly

theorem top_eq {s t : State} (h : WritesWorkersOnly s t) : t.top = s.top := by
  unfold WritesWorkersOnly at h; rw [h]

theorem env_eq {s t : State} (h : WritesWorkersOnly s t) : t.env = s.env := by
  unfold WritesWorkersOnly at h; rw [h]

theorem refl (s : State) : WritesWorkersOnly s s := rfl

theorem trans {s t u : State} (hst : WritesWorkersOnly s t) (htu : WritesWorkersOnly t u) : WritesWorkersOnly s u := by
  unfold WritesWorkersOnly at hst htu ⊢
  rw [htu, hst]

end WritesWorkersOnly

theorem toTerminal_writesWorkersOnly (w : Worker) (x : Terminal) (s : State) :
    WritesWorkersOnly s (toTerminal w x s) := by
  cases w <;> rfl

/-! #### ONESHOT -/

theorem blockSent_writesWorkersOnly (s : State) : WritesWorkersOnly s (blockSent s) := by
  rw [(blockSent_frame s).1]; rfl

theorem keysSent_writesWorkersOnly (s : State) : WritesWorkersOnly s (keysSent s) := by
  rw [(keysSent_frame s).1]; rfl

theorem computePrimitive_writesWorkersOnly (y : Block) (s : State) : WritesWorkersOnly s (computePrimitive y s) := rfl

theorem computeKeySched_writesWorkersOnly (s : State) : WritesWorkersOnly s (computeKeySched s) := by
  simp only [computeKeySched]; split <;> rfl

theorem blockCore_writesWorkersOnly {d : Direction} {x y : Block} {s t : State} (h : blockCore d x s = .ok (y, t)) :
    WritesWorkersOnly s t := by
  rw [blockCore_eq] at h
  split at h
  · simp only [Except.ok.injEq, Prod.mk.injEq] at h
    obtain ⟨-, rfl⟩ := h
    rfl
  · cases h

theorem computeBlock_writesWorkersOnly (d : Direction) (s : State) : WritesWorkersOnly s (computeBlock d s) := by
  unfold computeBlock
  split
  · exact toTerminal_writesWorkersOnly ..
  · next h => exact (blockCore_writesWorkersOnly h).trans rfl

/-! #### ENGINE -/

theorem engineReceive_writesWorkersOnly (x : Item) (s : State) : WritesWorkersOnly s (engineReceive x s) := by
  rw [(engineReceive_frame x s).1]; rfl

theorem engineSent_writesWorkersOnly (s : State) : WritesWorkersOnly s (engineSent s) := by
  rw [(engineSent_frame s).1]; rfl

/-- A block step that succeeds writes nothing outside the workers and the block core. -/
def BlockStep.WritesWorkersOnly (step : BlockStep) : Prop :=
  ∀ s y t, step s = .ok (y, t) → Machine.WritesWorkersOnly s t

theorem ecbStep_writesWorkersOnly (d : Direction) : BlockStep.WritesWorkersOnly (ecbStep d) :=
  fun _ _ _ h => blockCore_writesWorkersOnly h

theorem cbcEncStep_writesWorkersOnly : BlockStep.WritesWorkersOnly cbcEncStep := by
  intro s y t h
  simp only [cbcEncStep] at h
  split at h
  · cases h
  · next hcore =>
    simp only [Except.ok.injEq, Prod.mk.injEq] at h
    obtain ⟨-, rfl⟩ := h
    exact (blockCore_writesWorkersOnly hcore).trans rfl

theorem cbcDecStep_writesWorkersOnly : BlockStep.WritesWorkersOnly cbcDecStep := by
  intro s y t h
  simp only [cbcDecStep] at h
  split at h
  · cases h
  · next hcore =>
    simp only [Except.ok.injEq, Prod.mk.injEq] at h
    obtain ⟨-, rfl⟩ := h
    exact (blockCore_writesWorkersOnly hcore).trans rfl

theorem engineInner_writesWorkersOnly {step : BlockStep} (hstep : BlockStep.WritesWorkersOnly step) {s t : State}
    (h : engineInner step s = some t) : WritesWorkersOnly s t := by
  simp only [engineInner, Option.ite_none_right_eq_some, Option.some.injEq] at h
  obtain ⟨-, rfl⟩ := h
  unfold engineXform
  split
  · exact toTerminal_writesWorkersOnly ..
  · next h => exact (hstep _ _ _ h).trans rfl

/-! #### PAD, UNPAD and the internal channel pairs -/

theorem padReceive_writesWorkersOnly (x : Item) (s : State) : WritesWorkersOnly s (padReceive x s) := by
  rw [(padReceive_frame x s).1]; rfl

theorem padSent_writesWorkersOnly (s : State) : WritesWorkersOnly s (padSent s) := by
  rw [(padSent_frame s).1]; rfl

theorem unpadReceive_writesWorkersOnly (x : Item) (s : State) : WritesWorkersOnly s (unpadReceive x s) := by
  rw [(unpadReceive_frame x s).1]; rfl

theorem unpadSent_writesWorkersOnly (s : State) : WritesWorkersOnly s (unpadSent s) := by
  rw [(unpadSent_frame s).1]; rfl

theorem linkA_writesWorkersOnly {s t : State} (h : linkA s = some t) : WritesWorkersOnly s t := by
  simp only [linkA, Option.ite_none_right_eq_some, Option.map_eq_some_iff] at h
  obtain ⟨-, x, -, rfl⟩ := h
  exact (padSent_writesWorkersOnly s).trans (engineReceive_writesWorkersOnly x _)

theorem linkB_writesWorkersOnly {s t : State} (h : linkB s = some t) : WritesWorkersOnly s t := by
  simp only [linkB, Option.ite_none_right_eq_some, Option.map_eq_some_iff] at h
  obtain ⟨-, x, -, rfl⟩ := h
  exact (engineSent_writesWorkersOnly s).trans (unpadReceive_writesWorkersOnly x _)

/-! ### The pipelines -/

/-- Every part a pipeline's workers take in an edge writes the workers and the block core only. -/
structure Pipeline.WritesWorkersOnly (p : Pipeline) : Prop where
  receive : ∀ x s, Machine.WritesWorkersOnly s (p.receive x s)
  sent : ∀ s, Machine.WritesWorkersOnly s (p.sent s)
  inner : ∀ s t, p.inner s = some t → Machine.WritesWorkersOnly s t

theorem blockPipeline_writesWorkersOnly {compute : State → State} (h : ∀ s, WritesWorkersOnly s (compute s)) :
    (blockPipeline compute).WritesWorkersOnly where
  receive _ s := .refl s
  sent := blockSent_writesWorkersOnly
  inner s t ht := by
    simp only [blockPipeline, Option.ite_none_right_eq_some, Option.some.injEq] at ht
    obtain ⟨-, rfl⟩ := ht
    exact h s

theorem keysPipeline_writesWorkersOnly : keysPipeline.WritesWorkersOnly where
  receive _ s := .refl s
  sent := keysSent_writesWorkersOnly
  inner s t ht := by
    simp only [keysPipeline, Option.ite_none_right_eq_some, Option.some.injEq] at ht
    obtain ⟨-, rfl⟩ := ht
    exact computeKeySched_writesWorkersOnly s

theorem padPipeline_writesWorkersOnly : padPipeline.WritesWorkersOnly where
  receive := padReceive_writesWorkersOnly
  sent := padSent_writesWorkersOnly
  inner _ _ ht := nomatch ht

theorem unpadPipeline_writesWorkersOnly : unpadPipeline.WritesWorkersOnly where
  receive := unpadReceive_writesWorkersOnly
  sent := unpadSent_writesWorkersOnly
  inner _ _ ht := nomatch ht

section Engine
variable {step : BlockStep} (hstep : BlockStep.WritesWorkersOnly step)
include hstep

theorem enginePipeline_writesWorkersOnly : (enginePipeline step).WritesWorkersOnly where
  receive := engineReceive_writesWorkersOnly
  sent := engineSent_writesWorkersOnly
  inner _ _ ht := engineInner_writesWorkersOnly hstep ht

theorem padEnginePipeline_writesWorkersOnly : (padEnginePipeline step).WritesWorkersOnly where
  receive := padReceive_writesWorkersOnly
  sent := engineSent_writesWorkersOnly
  inner s t ht := by
    obtain h | ⟨-, h⟩ := Option.or_eq_some_iff.mp ht
    · exact engineInner_writesWorkersOnly hstep h
    · exact linkA_writesWorkersOnly h

theorem engineUnpadPipeline_writesWorkersOnly : (engineUnpadPipeline step).WritesWorkersOnly where
  receive := engineReceive_writesWorkersOnly
  sent := unpadSent_writesWorkersOnly
  inner s t ht := by
    obtain h | ⟨-, h⟩ := Option.or_eq_some_iff.mp ht
    · exact engineInner_writesWorkersOnly hstep h
    · exact linkB_writesWorkersOnly h

end Engine

theorem pipelineOf_writesWorkersOnly (i : Instr) : (pipelineOf i).WritesWorkersOnly := by
  cases i with
  | subBytes | invSubBytes | shiftRows | invShiftRows | mixColumns | invMixColumns | addRoundKey =>
    exact blockPipeline_writesWorkersOnly fun _ => computePrimitive_writesWorkersOnly ..
  | keySched => exact keysPipeline_writesWorkersOnly
  | blockEnc | blockDec => exact blockPipeline_writesWorkersOnly (computeBlock_writesWorkersOnly _)
  | ecbEnc | ecbDec => exact enginePipeline_writesWorkersOnly (ecbStep_writesWorkersOnly _)
  | cbcEnc => exact enginePipeline_writesWorkersOnly cbcEncStep_writesWorkersOnly
  | cbcDec => exact enginePipeline_writesWorkersOnly cbcDecStep_writesWorkersOnly
  | ecbEncPad => exact padEnginePipeline_writesWorkersOnly (ecbStep_writesWorkersOnly _)
  | ecbDecUnpad => exact engineUnpadPipeline_writesWorkersOnly (ecbStep_writesWorkersOnly _)
  | cbcEncPad => exact padEnginePipeline_writesWorkersOnly cbcEncStep_writesWorkersOnly
  | cbcDecUnpad => exact engineUnpadPipeline_writesWorkersOnly cbcDecStep_writesWorkersOnly
  | pad => exact padPipeline_writesWorkersOnly
  | unpad => exact unpadPipeline_writesWorkersOnly

/-! ### One edge of a running command: its part on `CH_OUT` alone reaches `TOP` and the host's taken items (R297) -/

/-- The state of an edge after its internal step and its transfer on `CH_IN`, before the one on `CH_OUT`. -/
def Pipeline.beforeOutput (p : Pipeline) (s : State) : State :=
  let s1 := (p.innerAt s).getD s
  match p.inputAt s with
  | some x => hostSent x (p.receive x s1)
  | none => s1

namespace Pipeline

theorem edge_of_outputAt_none {p : Pipeline} {s : State} (h : p.outputAt s = none) : p.edge s = p.beforeOutput s := by
  cases hin : p.innerAt s <;> cases hx : p.inputAt s <;> simp [edge, beforeOutput, h, hin, hx]

theorem edge_of_outputAt_some {p : Pipeline} {s : State} {x : Item} (h : p.outputAt s = some x) :
    p.edge s = hostTook x (p.sent (p.beforeOutput s)) := by
  cases hin : p.innerAt s <;> cases hx : p.inputAt s <;> simp [edge, beforeOutput, h, hin, hx]

variable {p : Pipeline} (hp : p.WritesWorkersOnly) (s : State)
include hp

theorem innerAt_writesWorkersOnly : Machine.WritesWorkersOnly s ((p.innerAt s).getD s) := by
  cases hin : p.innerAt s with
  | none => exact .refl s
  | some t =>
    simp only [innerAt, Option.ite_none_right_eq_some] at hin
    exact hp.inner s t hin.2

theorem beforeOutput_top : (p.beforeOutput s).top = s.top := by
  have hinner := innerAt_writesWorkersOnly hp s
  unfold beforeOutput
  split
  · exact ((hp.receive _ _).top_eq).trans hinner.top_eq
  · exact hinner.top_eq

theorem beforeOutput_taken : (p.beforeOutput s).env.taken = s.env.taken := by
  have hinner := congrArg Env.taken (innerAt_writesWorkersOnly hp s).env_eq
  unfold beforeOutput
  split
  · exact (congrArg Env.taken (hp.receive _ _).env_eq).trans hinner
  · exact hinner

theorem edge_taken : (p.edge s).env.taken = s.env.taken ++ (p.outputAt s).toList := by
  cases hout : p.outputAt s with
  | none => simp [edge_of_outputAt_none hout, beforeOutput_taken hp]
  | some x => simp [edge_of_outputAt_some hout, (hp.sent _).env_eq, beforeOutput_taken hp]

theorem edge_top : (p.edge s).top = if isTerminal (p.outputAt s) then .idle else s.top := by
  cases hout : p.outputAt s with
  | none => simp [edge_of_outputAt_none hout, beforeOutput_top hp, isTerminal]
  | some x =>
    rw [edge_of_outputAt_some hout]
    cases x with
    | data b => simp [(hp.sent _).top_eq, beforeOutput_top hp, isTerminal]
    | term t => simp [isTerminal]

end Pipeline

/-- A running command goes idle at exactly the edge at which the host takes a terminal. -/
theorem edge_idle_iff_terminal_taken (i : Instr) {s : State} (hrun : s.top = .run) :
    ((pipelineOf i).edge s).top = .idle ↔ ∃ x, ((pipelineOf i).edge s).env.taken = s.env.taken ++ [.term x] := by
  have hp := pipelineOf_writesWorkersOnly i
  rw [Pipeline.edge_top hp, Pipeline.edge_taken hp, hrun]
  rcases (pipelineOf i).outputAt s with _ | (b | t) <;> simp [isTerminal]

/-- An edge of a running command takes at most one item. -/
theorem edge_takes_at_most_one (i : Instr) (s : State) :
    ((pipelineOf i).edge s).env.taken = s.env.taken ∨
      ∃ x, ((pipelineOf i).edge s).env.taken = s.env.taken ++ [x] := by
  rw [Pipeline.edge_taken (pipelineOf_writesWorkersOnly i)]
  cases (pipelineOf i).outputAt s with
  | none => exact .inl (by simp)
  | some x => exact .inr ⟨x, rfl⟩

/-! ### The other edges -/

@[simp] theorem abortEdge_top (s : State) : (abortEdge s).top = .idle := by
  unfold abortEdge; split
  · assumption
  · rfl

@[simp] theorem abortEdge_env (s : State) : (abortEdge s).env = s.env := by
  unfold abortEdge; split <;> rfl

@[simp] theorem scheduleAtAcceptance_env (i : Instr) (s : State) : (scheduleAtAcceptance i s).env = s.env := by
  unfold scheduleAtAcceptance; split <;> rfl

@[simp] theorem startWorker_env (i : Instr) (s : State) (w : Worker) : (startWorker i s w).env = s.env := by
  cases w <;> rfl

@[simp] theorem foldl_startWorker_env (i : Instr) (ws : List Worker) (s : State) :
    (ws.foldl (startWorker i) s).env = s.env := by
  induction ws generalizing s with
  | nil => rfl
  | cons w ws ih => rw [List.foldl_cons, ih, startWorker_env]

@[simp] theorem acceptCommand_top (i : Instr) (s : State) : (acceptCommand i s).top = .run := by
  simp [acceptCommand]

@[simp] theorem acceptCommand_taken (i : Instr) (s : State) : (acceptCommand i s).env.taken = s.env.taken := by
  simp [acceptCommand]

/-! ### Every step -/

/-- `busy` is the top control state (R21, R110). -/
theorem outPorts_busy (s : State) : (outPorts s).busy = decide (s.top = .run) := by
  unfold outPorts; split <;> rfl

/-- R356, R357, R390: at an edge with `rst` or `abort` nothing is transferred and the core is idle after it. -/
theorem step_of_rst_or_abort {s t : State} (h : step s = .next t)
    (hoff : (inPorts s).rst = true ∨ (inPorts s).abort = true) :
    t.top = .idle ∧ t.env.taken = s.env.taken ∧ t.env.input = s.env.input := by
  obtain ⟨-, rfl⟩ | ⟨-, -, rfl⟩ | ⟨hrst, habt, -⟩ | ⟨hrst, habt, -⟩ | ⟨hrst, habt, -⟩ :=
    step_next_cases h
  · exact ⟨rfl, rfl, rfl⟩
  · simp
  all_goals simp [inPorts, hrst, habt] at hoff

/-- A step of a running core with neither `rst` nor `abort` is an edge of its command. -/
theorem step_of_running {s t : State} (h : step s = .next t) (hrun : s.top = .run)
    (hrst : (inPorts s).rst = false) (habt : (inPorts s).abort = false) :
    ∃ i, t = closeEdge ((pipelineOf i).edge s) := by
  replace hrst : (currentMove s).rst = false := hrst
  replace habt : (currentMove s).abort = false := habt
  obtain ⟨h1, -⟩ | ⟨-, h2, -⟩ | ⟨-, -, hidle, -⟩ | ⟨-, -, hidle, -⟩ | ⟨-, -, -, i, -, -, ht⟩ :=
    step_next_cases h
  · simp [hrst] at h1
  · simp [habt] at h2
  · simp [hrun] at hidle
  · simp [hrun] at hidle
  · exact ⟨i, ht⟩

theorem step_takes_at_most_one {s t : State} (h : step s = .next t) :
    t.env.taken = s.env.taken ∨ s.top = .run ∧ ∃ x, t.env.taken = s.env.taken ++ [x] := by
  obtain ⟨-, rfl⟩ | ⟨-, -, rfl⟩ | ⟨-, -, -, -, rfl⟩ | ⟨-, -, -, -, i, -, -, rfl⟩ | ⟨-, -, hrun, i, -, -, rfl⟩ :=
    step_next_cases h
  · exact .inl rfl
  · exact .inl (by simp)
  · exact .inl rfl
  · exact .inl (by simp)
  · exact (edge_takes_at_most_one i s).imp_right fun htook => ⟨hrun, htook⟩

/-- The core begins to run only at an edge at which a legal word is offered. -/
theorem step_run_of_idle {s t : State} (h : step s = .next t) (hidle : s.top = .idle) (hrun : t.top = .run) :
    (inPorts s).cmdValid = true ∧ ∃ i, decode (inPorts s).cmd = some i := by
  obtain ⟨-, rfl⟩ | ⟨-, -, rfl⟩ | ⟨-, -, -, -, rfl⟩ | ⟨-, -, -, hcmd, i, hdec, -⟩ | ⟨-, -, hrun', -⟩ :=
    step_next_cases h
  · simp at hrun
  · simp at hrun
  · simp [hidle] at hrun
  · exact ⟨hcmd, i, hdec⟩
  · simp [hidle] at hrun'

/-- Settles O45, clause by clause over the five kinds of step; the terminal clause is that of one edge of a pipeline whose
workers write neither `TOP` nor the host. -/
theorem topFollowsAcceptanceAndTerminal : Obligations.TopFollowsAcceptanceAndTerminal := by
  unfold Obligations.TopFollowsAcceptanceAndTerminal
  intro s t h
  refine ⟨by simp [outPorts_busy], step_takes_at_most_one h, step_run_of_idle h, fun hrun hrst habt => ?_,
    step_of_rst_or_abort h⟩
  obtain ⟨i, rfl⟩ := step_of_running h hrun hrst habt
  exact edge_idle_iff_terminal_taken i hrun

end Sys2Proof.Machine
end

section
/-! The command word: its four fields, what each command's word is, and which words are commands (30_encoding.md R101,
R107, R109, R115). -/

namespace Sys2Proof

open Sys2Proof.Machine

/-! ### Fields and words (R101, R107) -/

@[simp] theorem encodeKeySize_decodeKeySize (k : BitVec 2) : encodeKeySize (decodeKeySize k) = k := by
  revert k; decide

theorem fixedSize_eq_some {k : BitVec 2} {i j : Instr} : fixedSize k i = some j ↔ k = 0 ∧ i = j := by
  simp [fixedSize]

/-- A word is its four fields. -/
theorem packWord_fields (w : BitVec 8) : packWord (kszField w) (padenField w) (dirField w) (opField w) = w := by
  revert w; decide

theorem packWord_eq_of_fields {w : BitVec 8} {k : BitVec 2} {paden dir : BitVec 1} {op : BitVec 4}
    (hop : (opField w).toNat = op.toNat) (hdir : (dirField w).toNat = dir.toNat)
    (hpaden : (padenField w).toNat = paden.toNat) (hksz : kszField w = k) : packWord k paden dir op = w := by
  rw [← BitVec.eq_of_toNat_eq hop, ← BitVec.eq_of_toNat_eq hdir, ← BitVec.eq_of_toNat_eq hpaden, ← hksz, packWord_fields]

@[simp] theorem opField_packWord (k : BitVec 2) (paden dir : BitVec 1) (op : BitVec 4) :
    opField (packWord k paden dir op) = op := by
  revert k paden dir op; decide

/-- The `KSZ` field counts in steps of 0x40 (R115). -/
theorem packWord_eq_add (k : BitVec 2) (paden dir : BitVec 1) (op : BitVec 4) :
    packWord k paden dir op = packWord 0 paden dir op + 0x40 * k.zeroExtend 8 := by
  revert k paden dir op; decide

/-! ### Decoding and encoding undo each other -/

theorem decode_encode (i : Instr) : decode (encode i) = some i := by
  cases i with
  | subBytes | invSubBytes | shiftRows | invShiftRows | mixColumns | invMixColumns | addRoundKey | pad | unpad => rfl
  | keySched k | blockEnc k | blockDec k | ecbEnc k | ecbDec k | cbcEnc k | cbcDec k | ecbEncPad k | ecbDecUnpad k
  | cbcEncPad k | cbcDecUnpad k => cases k <;> rfl

/-- Row by row of the decoder: the fields matched are those of the command's word. -/
theorem encode_of_decode {w : BitVec 8} {i : Instr} (h : decode w = some i) : encode i = w := by
  simp only [decode] at h
  split at h
  case h_21 => cases h
  case h_1 | h_2 | h_3 | h_4 | h_5 | h_6 | h_7 | h_19 | h_20 =>
    obtain ⟨hksz, rfl⟩ := fixedSize_eq_some.mp h
    exact packWord_eq_of_fields ‹_› ‹_› ‹_› hksz
  all_goals
    cases h
    exact packWord_eq_of_fields ‹_› ‹_› ‹_› (encodeKeySize_decodeKeySize _).symm

theorem decode_eq_some_iff {w : BitVec 8} {i : Instr} : decode w = some i ↔ encode i = w :=
  ⟨encode_of_decode, fun h => h ▸ decode_encode i⟩

/-! ### The command map (R115) -/

/-- The word of a command with a key size is its word for `KSZ` = 0 with the field added. -/
theorem decode_add_ksz {w : BitVec 8} {paden dir : BitVec 1} {op : BitVec 4} {i : Instr} (k : BitVec 2)
    (hi : encode i = packWord (encodeKeySize (decodeKeySize k)) paden dir op) (hw : packWord 0 paden dir op = w) :
    decode (w + 0x40 * k.zeroExtend 8) = some i := by
  rw [decode_eq_some_iff, hi, encodeKeySize_decodeKeySize, packWord_eq_add, hw]

theorem encode_mem_commandMap (i : Instr) :
    encode i ∈ ([0x00, 0x10, 0x01, 0x11, 0x02, 0x12, 0x03, 0x08, 0x18] : List (BitVec 8)) ∨
    encode i &&& 0x3F ∈ ([0x04, 0x05, 0x15, 0x06, 0x16, 0x07, 0x17, 0x26, 0x36, 0x27, 0x37] : List (BitVec 8)) := by
  cases i with
  | subBytes | invSubBytes | shiftRows | invShiftRows | mixColumns | invMixColumns | addRoundKey | pad | unpad =>
    left; decide
  | keySched k | blockEnc k | blockDec k | ecbEnc k | ecbDec k | cbcEnc k | cbcDec k | ecbEncPad k | ecbDecUnpad k
  | cbcEncPad k | cbcDecUnpad k => right; cases k <;> decide

/-- Settles O1: each byte of the map is the encoding of its command, and a word that decodes is an encoding. -/
theorem commandWordsAreTheCommandMap : Obligations.CommandWordsAreTheCommandMap := by
  unfold Obligations.CommandWordsAreTheCommandMap
  refine ⟨decode_encode .subBytes, decode_encode .invSubBytes, decode_encode .shiftRows, decode_encode .invShiftRows,
    decode_encode .mixColumns, decode_encode .invMixColumns, decode_encode .addRoundKey, decode_encode .pad,
    decode_encode .unpad, fun k => ?_, fun w hw => ?_⟩
  · exact ⟨decode_add_ksz k rfl rfl, decode_add_ksz k rfl rfl, decode_add_ksz k rfl rfl, decode_add_ksz k rfl rfl,
      decode_add_ksz k rfl rfl, decode_add_ksz k rfl rfl, decode_add_ksz k rfl rfl, decode_add_ksz k rfl rfl,
      decode_add_ksz k rfl rfl, decode_add_ksz k rfl rfl, decode_add_ksz k rfl rfl, encodeKeySize_decodeKeySize k⟩
  · obtain ⟨i, hi⟩ := Option.isSome_iff_exists.mp hw
    exact encode_of_decode hi ▸ encode_mem_commandMap i

/-! ### The legal commands (R109) -/

/-- The four conditions of R109 on the fields of the word, which its byte alone settles. -/
theorem decode_isSome_iff (w : BitVec 8) :
    (decode w).isSome = true ↔
      (opField w).toNat ≤ 8 ∧
      (padenField w = 1 → (opField w).toNat = 6 ∨ (opField w).toNat = 7) ∧
      ((opField w).toNat = 3 ∨ (opField w).toNat = 4 → dirField w = 0) ∧
      ((opField w).toNat < 4 ∨ (opField w).toNat = 8 → kszField w = 0) := by
  revert w; decide

theorem length_filter_decode_isSome :
    ((List.range 256).filter fun n => (decode (BitVec.ofNat 8 n)).isSome).length = 53 := by
  decide

open Laws.Fields in
/-- What the fields of its word say of a command, for every command (R107 to R109, R292). -/
theorem fields_encode (i : Instr) : Laws.Fields.Statement i := by
  cases i
  exacts [subBytes, invSubBytes, shiftRows, invShiftRows, mixColumns, invMixColumns, addRoundKey, keySched _, blockEnc _,
    blockDec _, ecbEnc _, ecbDec _, cbcEnc _, cbcDec _, ecbEncPad _, ecbDecUnpad _, cbcEncPad _, cbcDecUnpad _, pad, unpad]

/-- The fifth condition of R109: a command uses PAD or UNPAD, as `DIR` says, exactly when `OP` is PKCS7 or `PADEN` is 1. -/
theorem blockSizeOk_iff (i : Instr) (blksz : BitVec 8) :
    blockSizeOk i blksz = true ↔
      ((opField (encode i)).toNat = 8 ∨ padenField (encode i) = 1 → blksz ≠ 0) := by
  obtain ⟨-, -, -, -, hpad, -, hunpad⟩ := fields_encode i
  have hdir : ∀ d : BitVec 1, d = 0 ∨ d = 1 := by decide
  have hpadding : .pad ∈ workersOf i ∨ .unpad ∈ workersOf i ↔
      (opField (encode i)).toNat = 8 ∨ padenField (encode i) = 1 := by
    rw [hpad, hunpad, ← or_and_right, or_comm (a := padenField _ = 1)]
    exact and_iff_right (hdir _)
  rw [← hpadding, imp_iff_not_or]
  simp [blockSizeOk]

theorem legal_iff (w blksz : BitVec 8) :
    (∃ i, decode w = some i ∧ blockSizeOk i blksz = true) ↔
      (decode w).isSome = true ∧ ((opField w).toNat = 8 ∨ padenField w = 1 → blksz ≠ 0) := by
  cases h : decode w with
  | none => simp
  | some i => simp [blockSizeOk_iff, encode_of_decode h]

end Sys2Proof
end

section
/-! The output wires (30_encoding.md R110): what a pipeline offers is what its last worker offers. -/

namespace Sys2Proof.Machine

open Sys2Proof.Safety

/-! ### What one worker offers (R34, R35) -/

/-- What the worker `w` of the command `i` offers downstream: its byte in flight in its send state, its terminal in its
TERM state, nothing in any other. -/
def workerOffer (i : Instr) (w : Worker) (s : State) : Option Item :=
  if workerSending w s then some (.data (byteInFlight i w s)) else (workerTerminal w s).map .term

/-- A worker has one control state. -/
theorem workerSending_of_terminal {w : Worker} {s : State} {t : Terminal} (h : workerTerminal w s = some t) :
    workerSending w s = false := by
  cases w with
  | oneshot => cases hst : s.one.ost <;> simp_all [workerTerminal, workerSending]
  | pad => cases hst : s.pad.pst <;> simp_all [workerTerminal, workerSending]
  | engine => cases hst : s.eng.est <;> simp_all [workerTerminal, workerSending]
  | unpad => cases hst : s.unp.ust <;> simp_all [workerTerminal, workerSending]

theorem workerOffer_of_sending {i : Instr} {w : Worker} {s : State} (h : workerSending w s = true) :
    workerOffer i w s = some (.data (byteInFlight i w s)) := if_pos h

theorem workerOffer_of_terminal {i : Instr} {w : Worker} {s : State} {t : Terminal} (h : workerTerminal w s = some t) :
    workerOffer i w s = some (.term t) := by
  simp [workerOffer, workerSending_of_terminal h, h]

theorem isData_workerOffer (i : Instr) (w : Worker) (s : State) :
    isData (workerOffer i w s) = workerSending w s := by
  unfold workerOffer
  split
  · simp_all [isData]
  · cases workerTerminal w s <;> simp_all [isData]

theorem isTerminal_workerOffer (i : Instr) (w : Worker) (s : State) :
    isTerminal (workerOffer i w s) = (workerTerminal w s).isSome := by
  cases h : workerTerminal w s with
  | some t => simp [workerOffer_of_terminal h, isTerminal]
  | none => cases hsend : workerSending w s <;> simp [workerOffer, h, hsend, isTerminal]

/-! ### What a pipeline offers and receives (R292) -/

theorem blockOffer_eq {i : Instr} (hi : (opField (encode i)).toNat ≠ 4) (s : State) :
    blockOffer s = workerOffer i .oneshot s := by
  cases hst : s.one.ost <;> simp [blockOffer, workerOffer, workerSending, workerTerminal, byteInFlight, hst, hi]

theorem keysOffer_eq {i : Instr} (hi : (opField (encode i)).toNat = 4) (s : State) :
    keysOffer s = workerOffer i .oneshot s := by
  cases hst : s.one.ost <;> simp [keysOffer, workerOffer, workerSending, workerTerminal, byteInFlight, hst, hi]

theorem padOffer_eq (i : Instr) (s : State) : padOffer s = workerOffer i .pad s := by
  cases hst : s.pad.pst <;> simp [padOffer, workerOffer, workerSending, workerTerminal, byteInFlight, hst]

theorem engineOffer_eq (i : Instr) (s : State) : engineOffer s = workerOffer i .engine s := by
  cases hst : s.eng.est <;> simp [engineOffer, workerOffer, workerSending, workerTerminal, byteInFlight, hst]

theorem unpadOffer_eq (i : Instr) (s : State) : unpadOffer s = workerOffer i .unpad s := by
  cases hst : s.unp.ust <;> simp [unpadOffer, workerOffer, workerSending, workerTerminal, byteInFlight, hst]

theorem pipelineOf_offer {i : Instr} {last : Worker} (h : (workersOf i).getLast? = some last) (s : State) :
    (pipelineOf i).offer s = workerOffer i last s := by
  cases i with
  | subBytes | invSubBytes | shiftRows | invShiftRows | mixColumns | invMixColumns | addRoundKey | blockEnc | blockDec =>
    cases h; exact blockOffer_eq (by simp [encode]) s
  | keySched => cases h; exact keysOffer_eq (by simp [encode]) s
  | ecbEnc | ecbDec | cbcEnc | cbcDec | ecbEncPad | cbcEncPad => cases h; exact engineOffer_eq _ s
  | pad => cases h; exact padOffer_eq _ s
  | ecbDecUnpad | cbcDecUnpad | unpad => cases h; exact unpadOffer_eq _ s

theorem pipelineOf_filling {i : Instr} {first : Worker} (h : (workersOf i).head? = some first) (s : State) :
    (pipelineOf i).filling s = workerFilling first s := by
  cases i <;> cases h <;> rfl

/-! ### The wires -/

/-- Whatever `CMDR` holds, the wires are `statusPorts` of `TOP` and of some first and last worker. -/
theorem outPorts_eq_statusPorts (s : State) : ∃ filling offer, outPorts s = statusPorts s.top filling offer s.edges := by
  unfold outPorts; split <;> exact ⟨_, _, rfl⟩

theorem outPorts_of_running {s : State} {i : Instr} (hrun : s.top = .run) (hdec : decode s.latch.cmdr = some i) :
    outPorts s = statusPorts .run ((pipelineOf i).filling s) ((pipelineOf i).offer s) s.edges := by
  simp [outPorts, hrun, hdec]

theorem outPorts_cmdReady (s : State) : (outPorts s).cmdReady = decide (s.top = .idle) := by
  obtain ⟨_, _, h⟩ := outPorts_eq_statusPorts s
  simp [h, statusPorts]

theorem outPorts_inTermReady (s : State) : (outPorts s).inTermReady = (outPorts s).inReady := by
  obtain ⟨_, _, h⟩ := outPorts_eq_statusPorts s
  simp [h, statusPorts]

/-- A core offers a byte or a terminal, never both. -/
theorem outPorts_not_both (s : State) : ¬((outPorts s).outValid = true ∧ (outPorts s).outTermValid = true) := by
  obtain ⟨_, offer, h⟩ := outPorts_eq_statusPorts s
  rw [h]
  rcases offer with _ | (b | t) <;> simp [statusPorts, isData, isTerminal]

theorem outPorts_of_idle {s : State} (hidle : s.top = .idle) :
    (outPorts s).inReady = false ∧ (outPorts s).outValid = false ∧ (outPorts s).outTermValid = false := by
  obtain ⟨_, _, h⟩ := outPorts_eq_statusPorts s
  simp [h, statusPorts, hidle]

/-- Settles O39: the wires of a running core are those of its pipeline, whose ends are the command's first and last worker. -/
theorem outputWiresFollowTheState : Obligations.OutputWiresFollowTheState := by
  unfold Obligations.OutputWiresFollowTheState
  intro s _ _
  refine ⟨⟨outPorts_busy s, outPorts_cmdReady s, outPorts_inTermReady s, outPorts_not_both s⟩, outPorts_of_idle, ?_⟩
  intro i first last hrun hdec hfirst hlast
  rw [outPorts_of_running hrun hdec, pipelineOf_filling hfirst, pipelineOf_offer hlast]
  refine ⟨?_, ?_, ?_, fun hsend => ?_, fun t ht => ?_⟩
  · simp [statusPorts]
  · simp [statusPorts, isData_workerOffer]
  · simp [statusPorts, isTerminal_workerOffer]
  · simp [statusPorts, workerOffer_of_sending hsend]
  · simp [statusPorts, workerOffer_of_terminal ht]

end Sys2Proof.Machine
end

section
/-! Acceptance of a command: when an edge is one, and everything it writes (30_encoding.md R108, R109, R116). -/

namespace Sys2Proof.Machine

/-! ### The edge of an idle core at which a command is offered -/

section Offered
variable {s : State} (hidle : s.top = .idle) (hrst : (inPorts s).rst = false) (habt : (inPorts s).abort = false)
  (hvalid : (inPorts s).cmdValid = true)
include hidle hrst habt hvalid

theorem step_of_reserved (hdec : decode (inPorts s).cmd = none) : step s = .refused .reservedCommand := by
  simp [step, edgeKind, hidle, hrst, habt, hvalid, hdec]

theorem step_of_offered {i : Instr} (hdec : decode (inPorts s).cmd = some i) : step s = closeOutcome (exec i s) := by
  simp [step, edgeKind, hidle, hrst, habt, hvalid, hdec]

theorem step_of_legal {i : Instr} (hdec : decode (inPorts s).cmd = some i)
    (hsize : blockSizeOk i (inPorts s).blksz = true) : step s = .next (closeEdge (acceptCommand i s)) := by
  rw [step_of_offered hidle hrst habt hvalid hdec, exec_idle hidle, if_pos hsize, closeOutcome]

theorem step_of_illegal (hillegal : ¬∃ i, decode (inPorts s).cmd = some i ∧ blockSizeOk i (inPorts s).blksz = true) :
    step s = .refused .reservedCommand ∨ step s = .refused .zeroBlockSize := by
  cases hdec : decode (inPorts s).cmd with
  | none => exact .inl (step_of_reserved hidle hrst habt hvalid hdec)
  | some i =>
    have hsize : ¬blockSizeOk i (inPorts s).blksz = true := fun h => hillegal ⟨i, hdec, h⟩
    right
    rw [step_of_offered hidle hrst habt hvalid hdec, exec_idle hidle, if_neg hsize, closeOutcome]

theorem legal_iff_step_runs :
    (∃ i, decode (inPorts s).cmd = some i ∧ blockSizeOk i (inPorts s).blksz = true) ↔
      ∃ t, step s = .next t ∧ t.top = .run := by
  constructor
  · rintro ⟨i, hdec, hsize⟩
    exact ⟨_, step_of_legal hidle hrst habt hvalid hdec hsize, by simp⟩
  · rintro ⟨t, ht, -⟩
    by_contra hillegal
    rcases step_of_illegal hidle hrst habt hvalid hillegal with h | h <;> simp [h] at ht

end Offered

/-- Settles O3: the conditions on the word are the decoder's, the one on `blksz` is the acceptance check, and the edge at
which a command is offered accepts it or refuses it by these two. -/
theorem exactlyTheLegalCommandsAreAccepted : Obligations.ExactlyTheLegalCommandsAreAccepted := by
  unfold Obligations.ExactlyTheLegalCommandsAreAccepted
  refine ⟨fun w blksz => ?_, length_filter_decode_isSome, fun s hidle hrst habt hvalid =>
    ⟨legal_iff_step_runs hidle hrst habt hvalid, step_of_illegal hidle hrst habt hvalid⟩⟩
  rw [legal_iff, decode_isSome_iff]
  simp only [and_assoc]

/-! ### What acceptance writes -/

/-- The workers of a command in their starting state and the others as they were, whatever the order of starting. -/
theorem foldl_startWorker (i : Instr) (ws : List Worker) (s : State) :
    ws.foldl (startWorker i) s = { s with
      one := { s.one with ost := if .oneshot ∈ ws then .compute else s.one.ost },
      pad := if .pad ∈ ws then { s.pad with pst := .fill, pcnt := 0, plast := false } else s.pad,
      eng := if .engine ∈ ws then
          { s.eng with est := .fill, icnt := 0, fb := if usesFeedback i then s.latch.ivr else s.eng.fb }
        else s.eng,
      unp := if .unpad ∈ ws then { s.unp with ust := .fill, ucnt := 0, uhave := false, ulast := false } else s.unp } := by
  induction ws generalizing s with
  | nil => rfl
  | cons w ws ih =>
    rw [List.foldl_cons, ih]
    cases w <;> by_cases hfb : usesFeedback i = true <;> simp [startWorker, hfb]

theorem scheduleAtAcceptance_eq (i : Instr) (s : State) :
    scheduleAtAcceptance i s = { s with
      sched := if usesSchedule i then keyExpand (keySizeOf i) s.latch.key s.sched else { s.sched with rkn := 0 } } := by
  unfold scheduleAtAcceptance; split <;> rfl

/-- The host's part in acceptance writes and reads the host alone. -/
theorem hostAccepted_eq {s s' : State} (h : s'.env = s.env) :
    hostAccepted s' = { s' with env := (hostAccepted s).env } := by
  simp only [hostAccepted, h]; split <;> rfl

/-- Acceptance in one record, by the workers and the tables of the command. -/
theorem acceptCommand_eq (i : Instr) (s : State) :
    acceptCommand i s = { s with
      top := .run,
      latch := (latchOperands i s).latch,
      sched := if usesSchedule i then keyExpand (keySizeOf i) (blockOfPort s.env.job.key) s.sched
        else { s.sched with rkn := 0 },
      one := { s.one with ost := if .oneshot ∈ workersOf i then .compute else .idle },
      pad := if .pad ∈ workersOf i then { s.pad with pst := .fill, pcnt := 0, plast := false }
        else { s.pad with pst := .idle },
      eng := if .engine ∈ workersOf i then
          { s.eng with est := .fill, icnt := 0, fb := if usesFeedback i then blockOfPort s.env.job.iv else s.eng.fb }
        else { s.eng with est := .idle },
      unp := if .unpad ∈ workersOf i then { s.unp with ust := .fill, ucnt := 0, uhave := false, ulast := false }
        else { s.unp with ust := .idle },
      env := (hostAccepted s).env } := by
  simp only [acceptCommand, foldl_startWorker, scheduleAtAcceptance_eq]
  rw [hostAccepted_eq (s := s) (by rfl)]
  simp

/-- Settles O33: acceptance as the model's tables of the command give it, each table read off the fields of the command's
word. -/
theorem acceptanceDoesAllItsWritesAtOnce : Obligations.AcceptanceDoesAllItsWritesAtOnce := by
  unfold Obligations.AcceptanceDoesAllItsWritesAtOnce
  intro i s hidle hsize p op dir paden
  obtain ⟨hksz, hsched, hfb, hone, hpad, heng, hunp⟩ := fields_encode i
  have haccept : exec i s = .next (acceptCommand i s) := by rw [exec_idle hidle, if_pos hsize]
  refine ⟨?_, fun hrst habt hvalid hdec => ⟨?_, encode_of_decode hdec, _, haccept, ?_⟩⟩
  · rw [haccept, acceptCommand_eq]
    simp only [hksz, hsched, hfb, hone, hpad, heng, hunp]
    rfl
  · simp [outPorts_cmdReady, hidle]
  · exact step_of_legal hidle hrst habt hvalid hdec hsize

/-- Settles O34: `KEY`, `IVR` and `BLK` are latched by `blockOfPort`, which takes each byte of its port as R116 says. -/
theorem operandsAreTheBytesOfThePorts : Obligations.OperandsAreTheBytesOfThePorts := by
  unfold Obligations.OperandsAreTheBytesOfThePorts
  intro i s t hidle h
  obtain ⟨-, -, rfl⟩ | ⟨hrun, -⟩ := exec_next_cases h
  · simp [acceptCommand_eq, blockOfPort]
  · simp [hidle] at hrun

end Sys2Proof.Machine
end

section
/-! Doubling and multiplication in GF(2^8): `xtime` on numbers, `gmul` as a sum of doublings (40_round_primitives.md R143,
R144). -/

namespace Sys2Proof.Machine

theorem toNat_xtime (a : Byte) :
    (xtime a).toNat = if a.toNat < 128 then 2 * a.toNat else (2 * a.toNat - 256) ^^^ 0x1B := by
  have ha := a.isLt
  have hmsb : a.msb = decide (128 ≤ a.toNat) := BitVec.msb_eq_decide a
  have hshift : (a <<< 1).toNat = 2 * a.toNat % 256 := by simp [Nat.shiftLeft_eq, mul_comm]
  rw [xtime, BitVec.toNat_xor, hshift, hmsb]
  by_cases hlt : a.toNat < 128
  · have hmod : 2 * a.toNat % 256 = 2 * a.toNat := by omega
    simp [hmod, hlt, not_le.mpr hlt]
  · have hmod : 2 * a.toNat % 256 = 2 * a.toNat - 256 := by omega
    simp [hmod, hlt, not_lt.mp hlt]

theorem repeat_xtime_xtime (n : Nat) (a : Byte) : Nat.repeat xtime n (xtime a) = Nat.repeat xtime (n + 1) a := by
  induction n with
  | zero => rfl
  | succ n ih => exact congrArg xtime ih

theorem repeat_xtime_zero (n : Nat) : Nat.repeat xtime n 0#8 = 0#8 := by
  induction n with
  | zero => rfl
  | succ n ih => rw [Nat.repeat, ih]; rfl

/-- The loop of R144 as a sum: round `i` sees bit `i` of `b` and `a` doubled `i` times. -/
theorem gmulLoop_eq_foldl (n : Nat) (p a b : Byte) :
    gmulLoop n p a b =
      (List.range n).foldl (fun p i => if b.getLsbD i then p ^^^ Nat.repeat xtime i a else p) p := by
  induction n generalizing p a b with
  | zero => rfl
  | succ n ih =>
    simp only [gmulLoop, ih, List.range_succ_eq_map, List.foldl_cons, List.foldl_map, repeat_xtime_xtime,
      BitVec.getLsbD_ushiftRight, Nat.add_comm 1]
    rfl

theorem gmul_eq_foldl (a b : Byte) :
    gmul a b = (List.range 8).foldl (fun p i => if b.getLsbD i then p ^^^ Nat.repeat xtime i a else p) 0 :=
  gmulLoop_eq_foldl 8 0 a b

theorem gmul_zero_right (a : Byte) : gmul a 0 = 0 := by
  simp [gmul_eq_foldl]

theorem gmul_zero_left (b : Byte) : gmul 0 b = 0 := by
  simp [gmul_eq_foldl, repeat_xtime_zero]

theorem gmul_one_right (a : Byte) : gmul a 1 = a := by
  simp [gmul_eq_foldl, List.range_succ_eq_map, Nat.repeat]

/-- Settles O7: doubling by its arithmetic on numbers, multiplication by unrolling its loop into the sum of doublings. -/
theorem doublingAndMultiplicationAreTheFieldsOwn : Obligations.DoublingAndMultiplicationAreTheFieldsOwn := by
  unfold Obligations.DoublingAndMultiplicationAreTheFieldsOwn
  refine ⟨toNat_xtime, gmul_eq_foldl, ?_, ?_, ?_, ?_, ?_, ?_, ?_, ?_, ?_,
    fun a => ⟨gmul_zero_right a, gmul_zero_left a, gmul_one_right a⟩⟩
  all_goals decide

end Sys2Proof.Machine
end

section
/-! ONESHOT with a block result: one edge of it, and how it computes and sends (40_round_primitives.md R141). -/

namespace Sys2Proof.Machine

open Sys2Proof.Safety

/-- The sixteenth byte is followed by the terminal. -/
theorem blockSent_of_emit {s : State} (hst : s.one.ost = .emit) :
    blockSent s = { s with one.oj := s.one.oj + 1, one.ost := if s.one.oj = 15 then .term .eos else .emit } := by
  have hlast : s.one.oj + 1 = 16 ↔ s.one.oj = 15 := by bv_omega
  simp only [blockSent, hst, hlast]
  split <;> simp [← hst]

theorem blockSent_of_term {s : State} {t : Terminal} (hst : s.one.ost = .term t) :
    blockSent s = { s with one.ost := .done } := by
  simp [blockSent, hst]

section BlockPipeline
variable {compute : State → State} {s : State}

@[simp] theorem blockPipeline_inputAt : (blockPipeline compute).inputAt s = none := rfl
@[simp] theorem blockPipeline_offer : (blockPipeline compute).offer s = blockOffer s := rfl
@[simp] theorem blockPipeline_sent : (blockPipeline compute).sent s = blockSent s := rfl
@[simp] theorem blockPipeline_inner :
    (blockPipeline compute).inner s = if s.one.ost = .compute then some (compute s) else none := rfl

@[simp] theorem blockPipeline_inBounds :
    (blockPipeline compute).inBounds s = true ↔ (s.one.ost = .emit → s.one.oj < 16) := by
  simp [blockPipeline, imp_iff_not_or]

theorem blockPipeline_edge_of_compute (hst : s.one.ost = .compute) (hgo : (currentMove s).go = true) :
    (blockPipeline compute).edge s = compute s := by
  simp [Pipeline.edge, Pipeline.innerAt, Pipeline.outputAt, blockOffer, hst, hgo]

theorem blockPipeline_edge_of_emit (hst : s.one.ost = .emit) :
    (blockPipeline compute).edge s = if (inPorts s).outReady = true then
        hostTook (.data (readAt s.core.sreg s.one.oj.toNat)) (blockSent s)
      else s := by
  cases hready : (inPorts s).outReady <;>
    simp [Pipeline.edge, Pipeline.innerAt, Pipeline.outputAt, blockOffer, hst, hready]

theorem blockPipeline_edge_of_term {t : Terminal} (hst : s.one.ost = .term t) :
    (blockPipeline compute).edge s = if (inPorts s).outTermReady = true then
        hostTook (.term t) (blockSent s)
      else s := by
  cases hready : (inPorts s).outTermReady <;>
    simp [Pipeline.edge, Pipeline.innerAt, Pipeline.outputAt, blockOffer, hst, hready]

variable {i : Instr} (hi : pipelineOf i = blockPipeline compute)
include hi

theorem exec_blockPipeline (hrun : s.top = .run) (hj : s.one.ost = .emit → s.one.oj < 16) :
    exec i s = .next ((blockPipeline compute).edge s) := by
  rw [exec_run hrun, hi, if_pos (blockPipeline_inBounds.mpr hj)]

/-- Whatever ONESHOT computes, it sends `S` the same way. -/
theorem sendsBlock_of_blockPipeline : sendsBlock i := by
  intro s hrun
  refine ⟨fun hst hj => ?_, fun t hst => ?_⟩
  · rw [exec_blockPipeline hi hrun fun _ => hj, blockPipeline_edge_of_emit hst, blockSent_of_emit hst]
    split <;> rfl
  · rw [exec_blockPipeline hi hrun (by simp [hst]), blockPipeline_edge_of_term hst, blockSent_of_term hst]
    split <;> rfl

end BlockPipeline

theorem computesBlock_of_blockPipeline {i : Instr} {y : Block → Block → Block}
    (hi : pipelineOf i = blockPipeline fun s => computePrimitive (y s.latch.blk s.latch.key) s) :
    computesBlock i y := by
  intro s hrun hst hgo
  rw [exec_blockPipeline hi hrun (by simp [hst]), blockPipeline_edge_of_compute hst hgo, computePrimitive]

/-- Settles O14: the seven commands differ in what ONESHOT computes alone. -/
theorem primitiveCommandsRunInOneshot : Obligations.PrimitiveCommandsRunInOneshot := by
  unfold Obligations.PrimitiveCommandsRunInOneshot
  refine ⟨computesBlock_of_blockPipeline rfl, computesBlock_of_blockPipeline rfl, computesBlock_of_blockPipeline rfl,
    computesBlock_of_blockPipeline rfl, computesBlock_of_blockPipeline rfl, computesBlock_of_blockPipeline rfl,
    computesBlock_of_blockPipeline rfl, ?_⟩
  simp only [primitiveCommands, List.forall_mem_cons]
  exact ⟨sendsBlock_of_blockPipeline rfl, sendsBlock_of_blockPipeline rfl, sendsBlock_of_blockPipeline rfl,
    sendsBlock_of_blockPipeline rfl, sendsBlock_of_blockPipeline rfl, sendsBlock_of_blockPipeline rfl,
    sendsBlock_of_blockPipeline rfl, List.forall_mem_nil _⟩

end Sys2Proof.Machine
end

section
/-! The byte maps, the row rotations and AddRoundKey: what each leaves in every byte, and what undoes what
(40_round_primitives.md R147 to R151, R154). -/

namespace Sys2Proof.Machine

/-! ### SubBytes and InvSubBytes (R147 to R149) -/

@[simp] theorem invSbox_sbox (a : Byte) : invSbox (sbox a) = a := by revert a; decide
@[simp] theorem sbox_invSbox (a : Byte) : sbox (invSbox a) = a := by revert a; decide
theorem sbox_ne_self (a : Byte) : sbox a ≠ a := by revert a; decide

@[simp] theorem getElem_subBytes (x : Block) (i : Nat) (h : i < 16) : (subBytes x)[i] = sbox x[i] := by
  simp [subBytes]

@[simp] theorem getElem_invSubBytes (x : Block) (i : Nat) (h : i < 16) : (invSubBytes x)[i] = invSbox x[i] := by
  simp [invSubBytes]

theorem subBytes_eq_ofFn (x : Block) : subBytes x = Vector.ofFn fun i => sbox x[i] := Vector.ext (by simp)

theorem invSubBytes_eq_ofFn (x : Block) : invSubBytes x = Vector.ofFn fun i => invSbox x[i] := Vector.ext (by simp)

@[simp] theorem invSubBytes_subBytes (x : Block) : invSubBytes (subBytes x) = x := Vector.ext (by simp)

@[simp] theorem subBytes_invSubBytes (x : Block) : subBytes (invSubBytes x) = x := Vector.ext (by simp)

/-- Settles O10, byte by byte from the two tables. -/
theorem subBytesSubstitutesEveryByte : Obligations.SubBytesSubstitutesEveryByte := by
  unfold Obligations.SubBytesSubstitutesEveryByte
  simp only [← subBytes_eq_ofFn, ← invSubBytes_eq_ofFn]
  refine ⟨rfl, rfl, computesBlock_of_blockPipeline rfl, fun x i => ?_, fun x i j hij => ?_, ?_,
    rfl, rfl, computesBlock_of_blockPipeline rfl, fun x => ⟨invSubBytes_subBytes x, subBytes_invSubBytes x⟩, ?_⟩
  · simpa using sbox_ne_self x[i]
  · simpa using congrArg sbox hij
  · rw [subBytes_eq_ofFn]; decide
  · rw [invSubBytes_eq_ofFn]; decide

/-! ### ShiftRows and InvShiftRows (R150, R151) -/

theorem readAt_shiftRows (x : Block) {i : Nat} (h : i < 16) :
    readAt (shiftRows x) i = readAt x (i % 4 + 4 * ((i / 4 + i % 4) % 4)) := by
  rw [readAt_of_lt _ h, readAt_of_lt _ (by omega)]
  simp [shiftRows]

theorem readAt_invShiftRows (x : Block) {i : Nat} (h : i < 16) :
    readAt (invShiftRows x) i = readAt x (i % 4 + 4 * ((i / 4 + 4 - i % 4) % 4)) := by
  rw [readAt_of_lt _ h, readAt_of_lt _ (by omega)]
  simp [invShiftRows]

theorem readAt_shiftRows_row (x : Block) {r c : Nat} (hr : r < 4) (hc : c < 4) :
    readAt (shiftRows x) (r + 4 * c) = readAt x (r + 4 * ((c + r) % 4)) := by
  rw [readAt_shiftRows x (by omega)]
  exact congrArg (readAt x) (by omega)

theorem readAt_invShiftRows_row (x : Block) {r c : Nat} (hr : r < 4) (hc : c < 4) :
    readAt (invShiftRows x) (r + 4 * c) = readAt x (r + 4 * ((c + 4 - r) % 4)) := by
  rw [readAt_invShiftRows x (by omega)]
  exact congrArg (readAt x) (by omega)

theorem getElem_shiftRows_permutation (x : Block) (i : Fin 16) :
    (shiftRows x)[i] = readAt x ([0, 5, 10, 15, 4, 9, 14, 3, 8, 13, 2, 7, 12, 1, 6, 11].getD i.val 0) := by
  have hindex : ∀ i : Fin 16, i.val % 4 + 4 * ((i.val / 4 + i.val % 4) % 4) =
      [0, 5, 10, 15, 4, 9, 14, 3, 8, 13, 2, 7, 12, 1, 6, 11].getD i.val 0 := by decide
  rw [← hindex, ← readAt_shiftRows x i.isLt]
  simp

theorem getElem_invShiftRows_permutation (x : Block) (i : Fin 16) :
    (invShiftRows x)[i] = readAt x ([0, 13, 10, 7, 4, 1, 14, 11, 8, 5, 2, 15, 12, 9, 6, 3].getD i.val 0) := by
  have hindex : ∀ i : Fin 16, i.val % 4 + 4 * ((i.val / 4 + 4 - i.val % 4) % 4) =
      [0, 13, 10, 7, 4, 1, 14, 11, 8, 5, 2, 15, 12, 9, 6, 3].getD i.val 0 := by decide
  rw [← hindex, ← readAt_invShiftRows x i.isLt]
  simp

/-- Two columns left or two columns right is the same place. -/
theorem readAt_shiftRows_rowTwo (x : Block) {c : Nat} (hc : c < 4) :
    readAt (shiftRows x) (2 + 4 * c) = readAt (invShiftRows x) (2 + 4 * c) := by
  rw [readAt_shiftRows_row x (by decide) hc, readAt_invShiftRows_row x (by decide) hc]
  exact congrArg (readAt x) (by omega)

theorem shiftRows_of_equalColumns {x : Block} (h : ∀ i < 16, readAt x i = readAt x (i % 4)) : shiftRows x = x :=
  block_ext fun i hi => by
    rw [readAt_shiftRows x hi, h _ (by omega), h i hi]
    exact congrArg (readAt x) (by omega)

@[simp] theorem invShiftRows_shiftRows (x : Block) : invShiftRows (shiftRows x) = x :=
  block_ext fun i hi => by
    rw [readAt_invShiftRows _ hi, readAt_shiftRows _ (by omega)]
    exact congrArg (readAt x) (by omega)

@[simp] theorem shiftRows_invShiftRows (x : Block) : shiftRows (invShiftRows x) = x :=
  block_ext fun i hi => by
    rw [readAt_shiftRows _ hi, readAt_invShiftRows _ (by omega)]
    exact congrArg (readAt x) (by omega)

/-- Settles O11: every clause is arithmetic on the index that a byte of the result comes from. -/
theorem shiftRowsRotatesEveryRow : Obligations.ShiftRowsRotatesEveryRow := by
  unfold Obligations.ShiftRowsRotatesEveryRow
  refine ⟨rfl, rfl, computesBlock_of_blockPipeline rfl, fun x _ _ => readAt_shiftRows_row x,
    getElem_shiftRows_permutation, fun x _ => readAt_shiftRows_rowTwo x, fun _ => shiftRows_of_equalColumns, ?_,
    rfl, rfl, computesBlock_of_blockPipeline rfl, fun x _ _ => readAt_invShiftRows_row x,
    getElem_invShiftRows_permutation, fun x => ⟨invShiftRows_shiftRows x, shiftRows_invShiftRows x⟩, ?_⟩
  · decide
  · decide

/-! ### AddRoundKey (R154) -/

@[simp] theorem getElem_zeroBlock (i : Nat) (h : i < 16) : zeroBlock[i] = 0 := by simp [zeroBlock]

@[simp] theorem getElem_addRoundKey (x k : Block) (i : Nat) (h : i < 16) : (addRoundKey x k)[i] = x[i] ^^^ k[i] :=
  getElem_xorBlock x k i h

@[simp] theorem addRoundKey_addRoundKey (x k : Block) : addRoundKey (addRoundKey x k) k = x := Vector.ext (by simp)

@[simp] theorem addRoundKey_zeroBlock (x : Block) : addRoundKey x zeroBlock = x := Vector.ext (by simp)

@[simp] theorem addRoundKey_self (x : Block) : addRoundKey x x = zeroBlock := Vector.ext (by simp)

/-- Settles O13: exclusive-or of bytes, with the key as it was latched. -/
theorem addRoundKeyXorsTheLatchedKey : Obligations.AddRoundKeyXorsTheLatchedKey := by
  unfold Obligations.AddRoundKeyXorsTheLatchedKey
  refine ⟨rfl, rfl, rfl, computesBlock_of_blockPipeline rfl, addRoundKey_addRoundKey,
    fun x => ⟨addRoundKey_zeroBlock x, addRoundKey_self x⟩, ?_⟩
  decide

end Sys2Proof.Machine
end

section
/-! The key schedule: RotWord and SubWord on the bytes of a word, what the expander leaves in the round-key store, and
KEYSCHED, which sends it (41_key_schedule.md R181 to R187). -/

namespace Sys2Proof.Machine

open Sys2Proof.Safety

/-! ### The bytes of a word (R66, R181, R182) -/

section Bytes
variable (b0 b1 b2 b3 : Byte)

@[simp] theorem extractLsb'_append_byte0 : (b0 ++ b1 ++ b2 ++ b3).extractLsb' 24 8 = b0 := by
  iterate 3 rw [BitVec.extractLsb'_append_eq_of_le (by decide)]
  exact BitVec.extractLsb'_eq_self

@[simp] theorem extractLsb'_append_byte1 : (b0 ++ b1 ++ b2 ++ b3).extractLsb' 16 8 = b1 := by
  iterate 2 rw [BitVec.extractLsb'_append_eq_of_le (by decide)]
  exact BitVec.extractLsb'_append_eq_right

@[simp] theorem extractLsb'_append_byte2 : (b0 ++ b1 ++ b2 ++ b3).extractLsb' 8 8 = b2 := by
  rw [BitVec.extractLsb'_append_eq_of_le (by decide)]
  exact BitVec.extractLsb'_append_eq_right

@[simp] theorem extractLsb'_append_byte3 : (b0 ++ b1 ++ b2 ++ b3).extractLsb' 0 8 = b3 :=
  BitVec.extractLsb'_append_eq_right

theorem subWord_append : subWord (b0 ++ b1 ++ b2 ++ b3) = sbox b0 ++ sbox b1 ++ sbox b2 ++ sbox b3 := by
  simp [subWord]

/-- Bit `i` comes from bit `i - 8`, and the lowest eight from the top byte. -/
theorem rotWord_append : rotWord (b0 ++ b1 ++ b2 ++ b3) = b1 ++ b2 ++ b3 ++ b0 := by
  ext i hi
  simp only [rotWord, BitVec.getElem_or, BitVec.getElem_shiftLeft, BitVec.getElem_ushiftRight]
  grind

end Bytes

/-- Settles O17, on a word written as its four bytes. -/
theorem scheduleBuildingBlocks : Obligations.ScheduleBuildingBlocks := by
  unfold Obligations.ScheduleBuildingBlocks
  refine ⟨rotWord_append, subWord_append, ?_, ?_⟩
  · decide
  · decide

/-! ### The expander (R185, R186) -/

theorem keyExpand_of_ne_k128 {k : KeySize} (h : k ≠ .k128) (key : Block) (r : ScheduleRegs) :
    keyExpand k key r = { r with rkn := 0 } := by
  cases k with
  | k128 => exact absurd rfl h
  | k192 | k256 | k3 => rfl

@[simp] theorem keyExpand_k128_rkn (key : Block) (r : ScheduleRegs) : (keyExpand .k128 key r).rkn = 11 := rfl

/-- Settles O19, by the key sizes. -/
theorem otherKeySizesGiveTheEmptySchedule : Obligations.OtherKeySizesGiveTheEmptySchedule := by
  unfold Obligations.OtherKeySizesGiveTheEmptySchedule
  intro k key r
  refine ⟨fun h => keyExpand_of_ne_k128 h key r, ?_⟩
  rintro rfl
  exact keyExpand_k128_rkn key r

/-- `KRND` counts the passes of the loop. -/
theorem krnd_repeat_expandRound (n : Nat) (r : ScheduleRegs) :
    (Nat.repeat expandRound n r).krnd = r.krnd + BitVec.ofNat 4 n := by
  induction n with
  | zero => simp [Nat.repeat]
  | succ n ih => simp [Nat.repeat, expandRound, ih, BitVec.ofNat_add, BitVec.add_assoc]

/-- A pass of the loop writes the round key at `KRND`, so passes that do not wrap `KRND` leave those below it. -/
theorem getElem_rk_repeat_expandRound (n : Nat) (r : ScheduleRegs) {i : Nat} (hi : i < 11) (hbelow : i < r.krnd.toNat)
    (hn : r.krnd.toNat + n ≤ 16) : (Nat.repeat expandRound n r).rk[i] = r.rk[i] := by
  induction n with
  | zero => rfl
  | succ n ih =>
    have hkrnd : (Nat.repeat expandRound n r).krnd.toNat = r.krnd.toNat + n := by
      rw [krnd_repeat_expandRound, BitVec.toNat_add, BitVec.toNat_ofNat]; omega
    rw [← ih (by omega)]
    exact Vector.getElem_setIfInBounds_ne hi (by omega)

/-- Round key 0 is the key. -/
theorem keyExpand_k128_rk_zero (key : Block) (r : ScheduleRegs) : (keyExpand .k128 key r).rk[0] = key :=
  calc (Nat.repeat expandRound 10 (expandStart key r)).rk[0]
    _ = (expandStart key r).rk[0] :=
      getElem_rk_repeat_expandRound _ _ _ (by simp [expandStart]) (by simp [expandStart])
    _ = key := by simp [expandStart]

theorem roundKeyAt_scheduleOf_zero (key : Block) : roundKeyAt (scheduleOf key) 0 = key := by
  rw [roundKeyAt_of_lt _ (by decide)]
  exact keyExpand_k128_rk_zero key _

/-! ### One edge of a pipeline that receives nothing -/

namespace Pipeline
variable {p : Pipeline} {s : State} (hin : p.inputAt s = none)
include hin

theorem edge_of_inner {t : State} (hoffer : p.offer s = none) (hgo : (currentMove s).go = true)
    (hinner : p.inner s = some t) : p.edge s = t := by
  simp [edge, innerAt, outputAt, hin, hoffer, hgo, hinner]

theorem edge_of_data {b : Byte} (hinner : p.inner s = none) (hoffer : p.offer s = some (.data b)) :
    p.edge s = if (inPorts s).outReady = true then hostTook (.data b) (p.sent s) else s := by
  cases hready : (inPorts s).outReady <;> simp [edge, innerAt, outputAt, hin, hinner, hoffer, hready]

theorem edge_of_terminal {t : Terminal} (hinner : p.inner s = none) (hoffer : p.offer s = some (.term t)) :
    p.edge s = if (inPorts s).outTermReady = true then hostTook (.term t) (p.sent s) else s := by
  cases hready : (inPorts s).outTermReady <;> simp [edge, innerAt, outputAt, hin, hinner, hoffer, hready]

end Pipeline

/-! ### KEYSCHED (R187) -/

theorem computeKeySched_eq (s : State) :
    computeKeySched s =
      { s with one := { oi := 0, oj := 0, ost := if s.sched.rkn = 0 then .term .eos else .emit } } := by
  by_cases hempty : s.sched.rkn = 0 <;> simp only [computeKeySched, hempty, if_true, if_false, toTerminal_oneshot]

/-- Byte 15 is followed by the next round key, and the last byte of round key 10 by the terminal. -/
theorem keysSent_of_emit {s : State} (hst : s.one.ost = .emit) (hrkn : s.sched.rkn = 11) (hi : s.one.oi < 11) :
    keysSent s = { s with
      one := if s.one.oj = 15 then
          { oi := s.one.oi + 1, oj := 0, ost := if s.one.oi = 10 then .term .eos else .emit }
        else { s.one with oj := s.one.oj + 1 } } := by
  have hlastByte : s.one.oj + 1 = 16 ↔ s.one.oj = 15 := by bv_omega
  have hlastKey : s.one.oi + 1 = 11 ↔ s.one.oi = 10 := by bv_omega
  have hsending : s.one.oi ≠ 11 := by bv_omega
  simp only [keysSent, hst, hlastByte]
  by_cases hj : s.one.oj = 15
  · simp only [hj, if_true, hrkn, hlastKey]
    split <;> simp [← hst]
  · simp only [hj, if_false, hrkn, hsending]

theorem keysSent_of_term {s : State} {t : Terminal} (hst : s.one.ost = .term t) :
    keysSent s = { s with one.ost := .done } := by
  simp [keysSent, hst]

theorem keysOffer_of_emit {s : State} (hst : s.one.ost = .emit) :
    keysOffer s = some (.data (readAt (roundKeyAt s.sched.rk s.one.oi.toNat) s.one.oj.toNat)) := by
  simp [keysOffer, hst]

theorem keysOffer_of_term {s : State} {t : Terminal} (hst : s.one.ost = .term t) : keysOffer s = some (.term t) := by
  simp [keysOffer, hst]

section KeySched
variable {s : State}

@[simp] theorem keysPipeline_inputAt : keysPipeline.inputAt s = none := rfl
@[simp] theorem keysPipeline_sent : keysPipeline.sent s = keysSent s := rfl

theorem exec_keySched {k : KeySize} (hrun : s.top = .run)
    (hbounds : s.one.ost = .emit → s.one.oj < 16 ∧ s.one.oi < 11) :
    exec (.keySched k) s = .next (keysPipeline.edge s) := by
  rw [exec_run hrun]
  exact if_pos (by simpa [pipelineOf, keysPipeline, imp_iff_not_or] using hbounds)

variable (k : KeySize) (hrun : s.top = .run)
include hrun

theorem exec_keySched_of_compute (hst : s.one.ost = .compute) (hgo : (currentMove s).go = true) :
    exec (.keySched k) s = .next (computeKeySched s) := by
  rw [exec_keySched hrun (by simp [hst]),
    Pipeline.edge_of_inner keysPipeline_inputAt (by simp [keysPipeline, keysOffer, hst]) hgo (if_pos hst)]

theorem exec_keySched_of_emit (hst : s.one.ost = .emit) (hi : s.one.oi < 11) (hj : s.one.oj < 16) :
    exec (.keySched k) s = .next (if (inPorts s).outReady = true then
      hostTook (.data (readAt (roundKeyAt s.sched.rk s.one.oi.toNat) s.one.oj.toNat)) (keysSent s) else s) := by
  rw [exec_keySched hrun fun _ => ⟨hj, hi⟩,
    Pipeline.edge_of_data keysPipeline_inputAt (by simp [keysPipeline, hst]) (keysOffer_of_emit hst),
    keysPipeline_sent]

theorem exec_keySched_of_term {t : Terminal} (hst : s.one.ost = .term t) :
    exec (.keySched k) s =
      .next (if (inPorts s).outTermReady = true then hostTook (.term t) (keysSent s) else s) := by
  rw [exec_keySched hrun (by simp [hst]),
    Pipeline.edge_of_terminal keysPipeline_inputAt (by simp [keysPipeline, hst])
      (keysOffer_of_term hst),
    keysPipeline_sent]

end KeySched

/-- Settles O20: each control state of ONESHOT by its edge, round key 0 by the frame of the expander's loop. -/
theorem keySchedSendsTheRoundKeysInOrder : Obligations.KeySchedSendsTheRoundKeysInOrder := by
  unfold Obligations.KeySchedSendsTheRoundKeysInOrder
  refine ⟨fun k => packWord_eq_add (encodeKeySize k) 0 0 4, fun k s hrun hst hgo => ?_,
    fun k s hrun hst hrkn hi hj => ?_, fun k s t hrun hst => ?_, roundKeyAt_scheduleOf_zero, ?_, ?_, ?_⟩
  · rw [exec_keySched_of_compute k hrun hst hgo, computeKeySched_eq]
  · rw [exec_keySched_of_emit k hrun hst hi hj, keysSent_of_emit hst hrkn hi]
    split <;> rfl
  · rw [exec_keySched_of_term k hrun hst, keysSent_of_term hst]
    split <;> rfl
  · decide
  · decide
  · decide

end Sys2Proof.Machine
end

section
/-! The block core: what the sequencer does a line at a time, a round at a time and from the load to `PH_DONE`, and the
BLOCK commands, which run it in ONESHOT (42_block_core.md R201 to R206). -/

namespace Sys2Proof.Machine

open Sys2Proof.Safety

/-! ### From rounds to a block, in either direction -/

section Rounds
variable {d : Direction} {rk : RoundKeys} {p : Phase} {round : Block → Nat → Block} {x first : Block}
variable (hload : seqStep d rk (seqLoad x) = ⟨first, 1, p⟩)
variable (hround : ∀ (s : Block) (i : BitVec 4), i < 10 →
  Nat.repeat (seqStep d rk) 4 ⟨s, i, p⟩ = ⟨round s i.toNat, i + 1, p⟩)
include hload hround

/-- Rounds 1 to `n`, of four steps each, follow the step that opens round 1. -/
theorem repeat_seqStep_rounds {n : Nat} (hn : n ≤ 9) :
    Nat.repeat (seqStep d rk) (4 * n + 1) (seqLoad x) =
      ⟨(List.range' 1 n).foldl round first, BitVec.ofNat 4 (1 + n), p⟩ := by
  induction n with
  | zero => exact hload
  | succ n ih =>
    have hrnd : (BitVec.ofNat 4 (1 + n)).toNat = 1 + n := Nat.mod_eq_of_lt (by omega)
    have hlt : BitVec.ofNat 4 (1 + n) < 10 := by rw [BitVec.lt_def, hrnd]; exact (by omega : 1 + n < 10)
    calc Nat.repeat (seqStep d rk) 4 (Nat.repeat (seqStep d rk) (4 * n + 1) (seqLoad x))
      _ = ⟨round ((List.range' 1 n).foldl round first) (1 + n), BitVec.ofNat 4 (1 + n) + 1, p⟩ := by
        rw [ih (by omega), hround _ _ hlt, hrnd]
      _ = _ := by simp [List.range'_concat, BitVec.ofNat_add, BitVec.add_assoc]

/-- The 40 steps of a run are the step that opens round 1, nine rounds, and the three steps of round 10. -/
theorem seqRun_of_rounds {y : Block}
    (hlast : Nat.repeat (seqStep d rk) 3 ⟨(List.range' 1 9).foldl round first, 10, p⟩ = ⟨y, 10, .done⟩) :
    seqRun d rk x = ⟨y, 10, .done⟩ :=
  calc Nat.repeat (seqStep d rk) 3 (Nat.repeat (seqStep d rk) (4 * 9 + 1) (seqLoad x))
    _ = Nat.repeat (seqStep d rk) 3 ⟨(List.range' 1 9).foldl round first, 10, p⟩ :=
      congrArg _ (repeat_seqStep_rounds hload hround (le_refl 9))
    _ = _ := hlast

end Rounds

/-! ### The forward direction (R204) -/

theorem seqStep_fwd_shift {i : BitVec 4} (hi : i < 10) (rk : RoundKeys) (s : Block) :
    seqStep .fwd rk ⟨s, i, .shift⟩ = ⟨shiftRows s, i, .mix⟩ := by
  simp only [seqStep, seqLine, forwardLine, if_pos hi, applyPrimitive]

theorem seqStep_fwd_ark {i : BitVec 4} (hi : i < 10) (rk : RoundKeys) (s : Block) :
    seqStep .fwd rk ⟨s, i, .ark⟩ = ⟨addRoundKey s (roundKeyAt rk i.toNat), i + 1, .sub⟩ := by
  simp only [seqStep, seqLine, forwardLine, if_pos hi, applyPrimitive]

/-- The four lines of a round. -/
theorem repeat_seqStep_fwd_round (rk : RoundKeys) (s : Block) (i : BitVec 4) (hi : i < 10) :
    Nat.repeat (seqStep .fwd rk) 4 ⟨s, i, .sub⟩ = ⟨encryptRound rk s i.toNat, i + 1, .sub⟩ :=
  calc seqStep .fwd rk (seqStep .fwd rk (seqStep .fwd rk ⟨subBytes s, i, .shift⟩))
    _ = seqStep .fwd rk ⟨mixColumns (shiftRows (subBytes s)), i, .ark⟩ := by rw [seqStep_fwd_shift hi]; rfl
    _ = ⟨encryptRound rk s i.toNat, i + 1, .sub⟩ := seqStep_fwd_ark hi rk _

/-- Round 10 goes from ShiftRows to AddRoundKey. -/
theorem seqRun_fwd (rk : RoundKeys) (x : Block) : seqRun .fwd rk x = ⟨encrypt rk x, 10, .done⟩ :=
  seqRun_of_rounds rfl (repeat_seqStep_fwd_round rk) rfl

/-- Settles O21: each line is a line of `forwardLine` as written, and the run goes round by round. -/
theorem forwardSequencerComputesEncrypt : Obligations.ForwardSequencerComputesEncrypt := by
  unfold Obligations.ForwardSequencerComputesEncrypt
  exact ⟨rfl, fun i _ _ => ⟨rfl, rfl, fun _ => rfl, rfl⟩, rfl, seqRun_fwd⟩

/-! ### The inverse direction (R205) -/

theorem seqStep_inv_ark {i : BitVec 4} (hi : i < 10) (rk : RoundKeys) (s : Block) :
    seqStep .inv rk ⟨s, i, .ark⟩ = ⟨addRoundKey s (roundKeyAt rk (10 - i.toNat)), i, .mix⟩ := by
  simp only [seqStep, seqLine, inverseLine, if_pos hi, applyPrimitive]

/-- The four lines of an application. -/
theorem repeat_seqStep_inv_round (rk : RoundKeys) (s : Block) (j : BitVec 4) (hj : j < 10) :
    Nat.repeat (seqStep .inv rk) 4 ⟨s, j, .shift⟩ = ⟨decryptRound rk s j.toNat, j + 1, .shift⟩ :=
  calc seqStep .inv rk (seqStep .inv rk ⟨invSubBytes (invShiftRows s), j, .ark⟩)
    _ = ⟨decryptRound rk s j.toNat, j + 1, .shift⟩ := by rw [seqStep_inv_ark hj]; rfl

/-- The tenth application ends with AddRoundKey. -/
theorem seqRun_inv (rk : RoundKeys) (x : Block) : seqRun .inv rk x = ⟨decrypt rk x, 10, .done⟩ :=
  seqRun_of_rounds rfl (repeat_seqStep_inv_round rk) rfl

/-! ### The BLOCK commands (R206) -/

/-- With an empty schedule nothing but the control state changes (R203). -/
theorem computeBlock_eq (d : Direction) (s : State) :
    computeBlock d s = if s.sched.rkn = 11 then
        { s with core := seqRun d s.sched.rk s.latch.blk, one.oj := 0, one.ost := .emit }
      else { s with one.ost := .term (.fail .ise) } := by
  by_cases hvalid : s.sched.rkn = 11
  · simp only [computeBlock, blockCore_eq, if_pos hvalid]
  · simp only [computeBlock, blockCore_eq, if_neg hvalid, raise_eq, toTerminal_oneshot]

theorem exec_of_computeBlock {i : Instr} {d : Direction} {s : State}
    (hi : pipelineOf i = blockPipeline (computeBlock d))
    (hrun : s.top = .run) (hst : s.one.ost = .compute) (hgo : (currentMove s).go = true) :
    exec i s = if s.sched.rkn = 11 then
        .next { s with core := seqRun d s.sched.rk s.latch.blk, one.oj := 0, one.ost := .emit }
      else .next { s with one.ost := .term (.fail .ise) } := by
  rw [exec_blockPipeline hi hrun (by simp [hst]), blockPipeline_edge_of_compute hst hgo, computeBlock_eq]
  split <;> rfl

/-- Settles O24: the two commands differ in the direction of the block core alone. -/
theorem blockCommandsRunInOneshot : Obligations.BlockCommandsRunInOneshot := by
  unfold Obligations.BlockCommandsRunInOneshot
  intro k
  refine ⟨fun s hrun hst hgo => ⟨?_, ?_⟩, sendsBlock_of_blockPipeline rfl, sendsBlock_of_blockPipeline rfl⟩
  · rw [exec_of_computeBlock rfl hrun hst hgo, seqRun_fwd]
  · rw [exec_of_computeBlock rfl hrun hst hgo, seqRun_inv]

end Sys2Proof.Machine
end

section
/-! The block step of ENGINE: in each of the four modes, what it leaves in the block core, `OBUF` and `FB`, and the edge that
takes it (43_chaining.md R233, R234). -/

namespace Sys2Proof.Machine

open Sys2Proof.Safety

/-! ### The block steps of the four modes (R234) -/

/-- The block step that ENGINE takes in a mode. -/
def modeStep (m : ChainMode) : BlockStep :=
  match m with
  | .ecbEnc => ecbStep .fwd
  | .ecbDec => ecbStep .inv
  | .cbcEnc => cbcEncStep
  | .cbcDec => cbcDecStep

theorem pipelineOf_chainCommand (m : ChainMode) (k : KeySize) :
    pipelineOf (chainCommand m k) = enginePipeline (modeStep m) := by cases m <;> rfl

theorem modeStep_of_valid {s : State} (hvalid : s.sched.rkn = 11) (m : ChainMode) :
    modeStep m s = .ok (blockStepOutput m s.sched.rk s.eng.ibuf s.eng.fb,
      { s with core := { sreg := coreResult m s.sched.rk s.eng.ibuf s.eng.fb, rnd := 10, ph := .done },
               eng.fb := blockStepFeedback m s.sched.rk s.eng.ibuf s.eng.fb }) := by
  cases m with
  | ecbEnc | ecbDec => simp only [modeStep, ecbStep, blockCore_eq, if_pos hvalid, seqRun_fwd, seqRun_inv]; rfl
  | cbcEnc => simp only [modeStep, cbcEncStep, blockCore_eq, if_pos hvalid, seqRun_fwd]; rfl
  | cbcDec => simp only [modeStep, cbcDecStep, blockCore_eq, if_pos hvalid, seqRun_inv]; rfl

theorem modeStep_of_empty {s : State} (hempty : s.sched.rkn ≠ 11) (m : ChainMode) : modeStep m s = .error .ise := by
  cases m with
  | ecbEnc | ecbDec => exact if_neg hempty
  | cbcEnc => simp only [modeStep, cbcEncStep, blockCore_eq, if_neg hempty]
  | cbcDec => simp only [modeStep, cbcDecStep, blockCore_eq, if_neg hempty]

/-! ### The edge that takes a block step (R233 `E_XFORM`) -/

theorem engineXform_of_ok {step : BlockStep} {s t : State} {y : Block} (h : step s = .ok (y, t)) :
    engineXform step s = { t with eng.obuf := y, eng.ocnt := 0, eng.icnt := 0, eng.est := .drain } := by
  simp only [engineXform, h]

/-- After an error ENGINE differs in its control state alone (R235). -/
theorem engineXform_of_error {step : BlockStep} {s : State} {e : Err} (h : step s = .error e) :
    engineXform step s = { s with eng.est := .term (.fail e) } := by
  simp only [engineXform, h, raise_eq, toTerminal_engine]

theorem enginePipeline_edge_of_xform (step : BlockStep) {s : State} (hst : s.eng.est = .xform)
    (hgo : (currentMove s).go = true) : (enginePipeline step).edge s = engineXform step s := by
  have hin : (enginePipeline step).inputAt s = none := by simp [Pipeline.inputAt, enginePipeline, hst]
  exact Pipeline.edge_of_inner hin (by simp [enginePipeline, engineOffer, hst]) hgo (if_pos hst)

theorem exec_chainCommand_of_xform (m : ChainMode) (k : KeySize) {s : State} (hrun : s.top = .run)
    (hst : s.eng.est = .xform) (hgo : (currentMove s).go = true) :
    exec (chainCommand m k) s = .next (engineXform (modeStep m) s) := by
  have hbounds : (enginePipeline (modeStep m)).inBounds s = true := by simp [enginePipeline, engineInBounds, hst]
  rw [exec_run hrun, pipelineOf_chainCommand, if_pos hbounds, enginePipeline_edge_of_xform _ hst hgo]

/-- Settles O26: the edge takes the mode's block step, which the schedule decides. -/
theorem engineTransformsOneBlock : Obligations.EngineTransformsOneBlock := by
  unfold Obligations.EngineTransformsOneBlock
  intro m k s hrun hst hgo
  rw [exec_chainCommand_of_xform m k hrun hst hgo]
  by_cases hvalid : s.sched.rkn = 11
  · rw [engineXform_of_ok (modeStep_of_valid hvalid m), if_pos hvalid]
  · rw [engineXform_of_error (modeStep_of_empty hvalid m), if_neg hvalid]

end Sys2Proof.Machine
end

section
/-! The pad amount: what PAD's stream function appends to an input with a clean end (44_padding.md R261, R264). -/

namespace Sys2Proof.Machine

open Sys2Proof.Safety

/-- The number of bytes that PAD appends to an input of `n` bytes (R261). -/
def padAmount (bsz n : Nat) : Nat := bsz - n % bsz

theorem padStream_eos (bsz : Nat) (xs : List Byte) :
    padStream bsz ⟨xs, .eos⟩ =
      ⟨xs ++ List.replicate (padAmount bsz xs.length) (BitVec.ofNat 8 (padAmount bsz xs.length)), .eos⟩ := rfl

theorem padAmount_le (bsz n : Nat) : padAmount bsz n ≤ bsz := Nat.sub_le bsz (n % bsz)

theorem padAmount_pos {bsz : Nat} (hbsz : 0 < bsz) (n : Nat) : 0 < padAmount bsz n :=
  Nat.sub_pos_of_lt (Nat.mod_lt n hbsz)

/-- The pad amount fits a byte (R261). -/
theorem toNat_ofNat_padAmount {bsz : Nat} (hbsz : bsz ≤ 255) (n : Nat) :
    (BitVec.ofNat 8 (padAmount bsz n)).toNat = padAmount bsz n :=
  Nat.mod_eq_of_lt (by have := padAmount_le bsz n; omega)

/-- The padded length closes the block in which the input ends. -/
theorem add_padAmount {bsz : Nat} (hbsz : 0 < bsz) (n : Nat) : n + padAmount bsz n = bsz * (n / bsz + 1) := by
  have hlt : n % bsz < bsz := Nat.mod_lt n hbsz
  have hdiv : bsz * (n / bsz) + n % bsz = n := Nat.div_add_mod n bsz
  rw [padAmount, Nat.mul_succ]
  omega

theorem add_padAmount_le {bsz n m : Nat} (hbsz : 0 < bsz) (hm : bsz ∣ m) (hlt : n < m) : n + padAmount bsz n ≤ m := by
  obtain ⟨k, rfl⟩ := hm
  rw [add_padAmount hbsz]
  exact Nat.mul_le_mul_left bsz (Nat.div_lt_of_lt_mul hlt)

/-- Settles O51: the padded length is the end of the block in which the input ends. -/
theorem padAppendsOneToBlockSizeBytes : Obligations.PadAppendsOneToBlockSizeBytes := by
  unfold Obligations.PadAppendsOneToBlockSizeBytes
  intro bsz xs hpos hle p ys
  have hys : ys = xs ++ List.replicate p (BitVec.ofNat 8 p) := congrArg Stream.bytes (padStream_eos bsz xs)
  have hlen : ys.length = xs.length + p := by rw [hys, List.length_append, List.length_replicate]
  refine ⟨padAmount_pos hpos _, padAmount_le _ _, ?_, hlen, fun b hb => ?_, ?_, fun m hlt hm => ?_⟩
  · rw [hys, List.take_left]
  · rw [hys, List.drop_left] at hb
    rw [List.eq_of_mem_replicate hb]
    exact toNat_ofNat_padAmount hle _
  · rw [hlen]
    exact Nat.mod_eq_zero_of_dvd ⟨_, add_padAmount hpos _⟩
  · rw [hlen]
    exact add_padAmount_le hpos (Nat.dvd_of_mod_eq_zero hm) hlt

end Sys2Proof.Machine
end

section
/-! The edge with `abort` = 1 and `rst` = 0: what it writes, and the quiet wires after it (60_exceptions.md R356, R357). -/

namespace Sys2Proof.Machine

theorem abortEdge_of_running {s : State} (hrun : s.top = .run) : abortEdge s = { idleWorkers s with top := .idle } := by
  rw [abortEdge, hrun]

theorem abortEdge_of_idle {s : State} (hidle : s.top = .idle) : abortEdge s = s := by
  rw [abortEdge, hidle]

/-- Abort outranks everything but reset (R357). -/
theorem step_of_abort {s : State} (hrst : (inPorts s).rst = false) (habt : (inPorts s).abort = true) :
    step s = .next (closeEdge (abortEdge s)) := by
  simp [step, edgeKind, hrst, habt]

/-- Settles O37: the edge is `abortEdge`, which leaves `TOP` idle, and the wires of an idle core are quiet. -/
theorem abortEdgeDropsTheCommand : Obligations.AbortEdgeDropsTheCommand := by
  unfold Obligations.AbortEdgeDropsTheCommand
  intro s hrst habt
  have hstep : step s = .next (closeEdge (abortEdge s)) := step_of_abort hrst habt
  refine ⟨fun hrun => ?_, fun hidle => ?_, fun t ht => ?_⟩
  · rw [hstep, abortEdge_of_running hrun]; rfl
  · rw [hstep, abortEdge_of_idle hidle]; rfl
  · obtain rfl : closeEdge (abortEdge s) = t := by simpa [hstep] using ht
    have hidle : (closeEdge (abortEdge s)).top = .idle := abortEdge_top s
    obtain ⟨hin, hout, hterm⟩ := outPorts_of_idle hidle
    exact ⟨hout, hterm, hin, by rw [outPorts_inTermReady, hin], by simp [outPorts_cmdReady, hidle]⟩

end Sys2Proof.Machine
end

section
/-! The edge with `rst` = 1: what it writes, and the quiet wires after it (70_reset_and_hazards.md R390). -/

namespace Sys2Proof.Machine

/-- Reset outranks everything else at the ports (R390). -/
theorem step_of_rst {s : State} (hrst : (inPorts s).rst = true) : step s = .next (closeEdge (resetEdge s)) := by
  simp [step, edgeKind, hrst]

/-- Settles O36: the edge is `resetEdge`, which leaves `TOP` idle, and the wires of an idle core are quiet. -/
theorem resetEdgeIdlesTheCore : Obligations.ResetEdgeIdlesTheCore := by
  unfold Obligations.ResetEdgeIdlesTheCore
  intro s hrst
  have hstep : step s = .next (closeEdge (resetEdge s)) := step_of_rst hrst
  refine ⟨hstep, fun t ht => ?_⟩
  obtain rfl : closeEdge (resetEdge s) = t := by simpa [hstep] using ht
  have hidle : (closeEdge (resetEdge s)).top = .idle := resetEdge_top s
  obtain ⟨hin, hout, hterm⟩ := outPorts_of_idle hidle
  exact ⟨hout, hterm, hin, by rw [outPorts_inTermReady, hin], by simp [outPorts_busy]⟩

end Sys2Proof.Machine
end

section
/-! The command word and its decoder: the round trip, the words written out from their fields, and the operand condition
(30_encoding.md R101 to R109). -/

namespace Sys2Proof

open Sys2Proof.Machine

/-- Settles O2, by `decode_encode` and the rows of the decoder. -/
theorem decodingAndEncodingAgree : Obligations.DecodingAndEncodingAgree := by
  unfold Obligations.DecodingAndEncodingAgree
  exact ⟨decode_encode, fun _ _ h => (encode_of_decode h).symm⟩

theorem wellFormed_eq_blockSizeOk (i : Instr) (blksz : BitVec 8) : i.wellFormed blksz = blockSizeOk i blksz := by
  cases i <;> rfl

/-- Settles O4: each command's row of the check is what its workers make of the acceptance check. -/
theorem wellFormedIsTheAcceptanceCheck : Obligations.WellFormedIsTheAcceptanceCheck := by
  unfold Obligations.WellFormedIsTheAcceptanceCheck
  exact wellFormed_eq_blockSizeOk

/-- Settles O5: each legal word is the encoding of its command, and each reserved word fails a condition of R109. -/
theorem sampleWordsDecode : Obligations.SampleWordsDecode := by
  unfold Obligations.SampleWordsDecode
  exact ⟨decode_encode .mixColumns, decode_encode .invShiftRows, decode_encode (.keySched .k192),
    decode_encode (.blockDec .k128), decode_encode (.ecbEnc .k3), decode_encode (.cbcDec .k256),
    decode_encode (.cbcDecUnpad .k128), decode_encode .pad, rfl, rfl, rfl, rfl⟩

/-- Settles O35: the six commands have PAD or UNPAD among their workers. -/
theorem zeroBlockSizeIsRefused : Obligations.ZeroBlockSizeIsRefused := by
  unfold Obligations.ZeroBlockSizeIsRefused
  intro k s hidle hzero i hi
  have hsize : blockSizeOk i 0 = false := by
    simp only [List.mem_cons, List.not_mem_nil, or_false] at hi
    obtain rfl | rfl | rfl | rfl | rfl | rfl := hi <;> rfl
  rw [exec_idle hidle, hzero, hsize]
  rfl

end Sys2Proof
end

section
/-! The edge of a command, the item that arrives on `CH_IN`, and the output wires at reset and beside the input wires
(30_encoding.md R110, R113; 45_stream_pipeline.md R296, R300, R303; 70_reset_and_hazards.md R392). -/

namespace Sys2Proof.Machine

open Sys2Proof.Safety

/-! ### The edges of a command, and the quiet edge (R300) -/

section Edge
variable {s : State} (hrst : (inPorts s).rst = false) (habt : (inPorts s).abort = false)
include hrst habt

theorem step_of_running_command {i : Instr} (hrun : s.top = .run) (hdec : decode s.latch.cmdr = some i) :
    step s = closeOutcome (exec i s) := by
  simp [step, edgeKind, hrun, hrst, habt, hdec]

theorem step_of_quiet (hidle : s.top = .idle) (hvalid : (inPorts s).cmdValid = false) : step s = .next (closeEdge s) := by
  simp [step, edgeKind, hidle, hrst, habt, hvalid]

end Edge

/-- Settles O6: an idle core decodes the port and a running one `CMDR`; without a command the edge is quiet. -/
theorem stepRunsTheDecodedCommand : Obligations.StepRunsTheDecodedCommand := by
  unfold Obligations.StepRunsTheDecodedCommand
  intro s hrst habt
  refine ⟨fun i hi => ?_, fun hidle hvalid => step_of_quiet hrst habt hidle hvalid⟩
  have hstep : step s = closeOutcome (exec i s) := by
    obtain ⟨hidle, hvalid, hdec⟩ | ⟨hrun, hdec⟩ := hi
    · exact step_of_offered hidle hrst habt hvalid hdec
    · exact step_of_running_command hrst habt hrun hdec
  rw [hstep]
  cases exec i s <;> rfl

/-! ### The item that arrives (R113, R296, R303) -/

theorem currentOffer_of_offering {s : State} (hoffer : (currentMove s).offerIn = true) :
    currentOffer s = s.env.input.head? := by
  simp [currentOffer, hoffer]

/-- Settles O40: by the kind of the first offer. -/
theorem hostOffersArriveAsItems : Obligations.HostOffersArriveAsItems := by
  unfold Obligations.HostOffersArriveAsItems
  intro s hoffer
  refine ⟨fun h => ?_, fun b rest h => ?_, fun rest h => ?_, fun rest h => ?_, fun b f rest h => ?_⟩ <;>
    simp [arrivingItem_eq, currentOffer_of_offering hoffer, h, offersAfter, inputTerminal]

/-! ### The output wires (R110, R392) -/

/-- Settles O38: after reset the core is idle, and the wires of an idle core are quiet. -/
theorem outputsAfterResetAreQuiet : Obligations.OutputsAfterResetAreQuiet := by
  unfold Obligations.OutputsAfterResetAreQuiet
  obtain ⟨hin, hout, hterm⟩ := outPorts_of_idle (s := State.reset) rfl
  refine ⟨rfl, rfl, fun w => ?_, by simp [outPorts_busy, State.reset], by simp [outPorts_cmdReady, State.reset], hin,
    by rw [outPorts_inTermReady, hin], hout, hterm⟩
  cases w <;> rfl

/-- No pipeline looks at the host to say whether it receives or what it offers. -/
theorem pipelineOf_wires_env (i : Instr) (s : State) (e : Env) :
    (pipelineOf i).filling { s with env := e } = (pipelineOf i).filling s ∧
      (pipelineOf i).offer { s with env := e } = (pipelineOf i).offer s := by
  cases i <;> exact ⟨rfl, rfl⟩

/-- Settles O60: the wires are functions of `TOP`, the edge count and the two ends of the pipeline. -/
theorem outputWiresDoNotReadTheInputWires : Obligations.OutputWiresDoNotReadTheInputWires := by
  unfold Obligations.OutputWiresDoNotReadTheInputWires
  intro s e
  unfold outPorts
  cases decode s.latch.cmdr with
  | none => rfl
  | some i =>
    obtain ⟨hfilling, hoffer⟩ := pipelineOf_wires_env i s e
    simp only [hfilling, hoffer]

/-- Settles O47: after reset `RKN` is 0 and the core does not run. -/
theorem resetMeetsTheInvariant : Obligations.ResetMeetsTheInvariant := by
  unfold Obligations.ResetMeetsTheInvariant
  exact ⟨.inl rfl, nofun⟩

end Sys2Proof.Machine
end

section
/-! The laws of multiplication in GF(2^8), from its being additive in each operand, and the S-box as the field inverse
followed by the affine map (40_round_primitives.md R145, R147, R158). -/

namespace Sys2Proof.Machine

/-! ### Additive maps on bytes -/

/-- A map of bytes that keeps exclusive-or. -/
def Additive (f : Byte → Byte) : Prop := ∀ a b, f (a ^^^ b) = f a ^^^ f b

namespace Additive
variable {f g : Byte → Byte}

theorem map_zero (hf : Additive f) : f 0 = 0 := by
  have h := hf 0 0
  rwa [BitVec.xor_self, BitVec.xor_self] at h

theorem comp (hg : Additive g) (hf : Additive f) : Additive fun a => g (f a) := fun a b => by
  simp only [hf a b, hg _ _]

theorem map_foldl (hf : Additive f) (xs : List Byte) (p : Byte) :
    f (xs.foldl (· ^^^ ·) p) = (xs.map f).foldl (· ^^^ ·) (f p) := by
  induction xs generalizing p with
  | nil => rfl
  | cons x xs ih => simp only [List.foldl_cons, List.map_cons, ih, hf p x]

/-- The single bits of a byte. -/
def bits (a : Byte) : List Byte := (List.range 8).map fun i => if a.getLsbD i then BitVec.twoPow 8 i else 0

theorem foldl_bits (a : Byte) : (bits a).foldl (· ^^^ ·) 0 = a := by revert a; decide

/-- Additive maps that agree on the eight single bits agree. -/
theorem ext (hf : Additive f) (hg : Additive g) (h : ∀ i < 8, f (BitVec.twoPow 8 i) = g (BitVec.twoPow 8 i)) (a : Byte) :
    f a = g a := by
  have hbits : (bits a).map f = (bits a).map g := by
    refine List.map_congr_left fun x hx => ?_
    obtain ⟨i, hi, rfl⟩ := List.mem_map.mp hx
    split
    · exact h i (List.mem_range.mp hi)
    · rw [map_zero hf, map_zero hg]
  calc f a
    _ = f ((bits a).foldl (· ^^^ ·) 0) := by rw [foldl_bits]
    _ = g ((bits a).foldl (· ^^^ ·) 0) := by rw [map_foldl hf, map_foldl hg, hbits, map_zero hf, map_zero hg]
    _ = g a := by rw [foldl_bits]

end Additive

theorem xor_xor_xor_comm (a b c d : Byte) : a ^^^ b ^^^ (c ^^^ d) = a ^^^ c ^^^ (b ^^^ d) := by ac_rfl

theorem xtime_additive : Additive xtime := by
  have hlow : ∀ p q : Bool, (if (p ^^ q) then Config.polyLow else 0) =
      (if p then Config.polyLow else 0) ^^^ (if q then Config.polyLow else 0) := by decide
  intro a b
  rw [xtime, BitVec.shiftLeft_xor_distrib, BitVec.msb_xor, hlow, xor_xor_xor_comm]
  rfl

theorem gmulLoop_xor_left (n : Nat) (p q a a' b : Byte) :
    gmulLoop n (p ^^^ q) (a ^^^ a') b = gmulLoop n p a b ^^^ gmulLoop n q a' b := by
  induction n generalizing p q a a' b with
  | zero => rfl
  | succ n ih =>
    simp only [gmulLoop, xtime_additive a a', ← ih]
    congr 1
    split
    · exact xor_xor_xor_comm p q a a'
    · rfl

theorem gmulLoop_xor_right (n : Nat) (p q a b c : Byte) :
    gmulLoop n (p ^^^ q) a (b ^^^ c) = gmulLoop n p a b ^^^ gmulLoop n q a c := by
  induction n generalizing p q a b c with
  | zero => rfl
  | succ n ih =>
    simp only [gmulLoop, ← ih, BitVec.ushiftRight_xor_distrib, BitVec.getLsbD_xor]
    congr 1
    cases b.getLsbD 0 <;> cases c.getLsbD 0 <;> simp only [Bool.xor_false, Bool.xor_true, Bool.not_false, Bool.not_true,
      Bool.false_eq_true, if_true, if_false]
    · ac_rfl
    · ac_rfl
    · rw [xor_xor_xor_comm, BitVec.xor_self, BitVec.xor_zero]

theorem gmul_additive_left (b : Byte) : Additive fun a => gmul a b := fun a a' => gmulLoop_xor_left 8 0 0 a a' b

theorem gmul_additive_right (a : Byte) : Additive (gmul a) := fun b c => gmulLoop_xor_right 8 0 0 a b c

theorem xor_gmul (a b c : Byte) : gmul (a ^^^ b) c = gmul a c ^^^ gmul b c := gmul_additive_left c a b

theorem gmul_xor (a b c : Byte) : gmul a (b ^^^ c) = gmul a b ^^^ gmul a c := gmul_additive_right a b c

/-! ### The laws of the field (R145) -/

theorem gmul_comm (a b : Byte) : gmul a b = gmul b a := by
  refine Additive.ext (gmul_additive_left b) (gmul_additive_right b) (fun i hi => ?_) a
  refine Additive.ext (gmul_additive_right _) (gmul_additive_left _) (fun j hj => ?_) b
  revert i j
  decide

theorem gmul_assoc (a b c : Byte) : gmul (gmul a b) c = gmul a (gmul b c) := by
  refine Additive.ext ((gmul_additive_left c).comp (gmul_additive_left b)) (gmul_additive_left _) (fun i hi => ?_) a
  refine Additive.ext ((gmul_additive_left c).comp (gmul_additive_right _))
    ((gmul_additive_right _).comp (gmul_additive_left c)) (fun j hj => ?_) b
  refine Additive.ext (gmul_additive_right _) ((gmul_additive_right _).comp (gmul_additive_right _)) (fun k hk => ?_) c
  revert i j k
  decide

@[simp] theorem gmul_one_left (a : Byte) : gmul 1 a = a := by rw [gmul_comm, gmul_one_right]

/-- The inverse of a byte, 0 for 0: the affine map of R158 undone on the S-box entry. -/
def invByte (a : Byte) : Byte :=
  (sbox a).rotateLeft 1 ^^^ (sbox a).rotateLeft 3 ^^^ (sbox a).rotateLeft 6 ^^^ 0x05

theorem gmul_invByte {a : Byte} (h : a ≠ 0) : gmul a (invByte a) = 1 := by revert a; decide

/-- A right inverse is the only one. -/
theorem eq_invByte_of_gmul_eq_one {a b : Byte} (h : gmul a b = 1) : b = invByte a := by
  have ha : a ≠ 0 := by
    rintro rfl
    rw [gmul_zero_left] at h
    exact absurd h (by decide)
  calc b
    _ = gmul (gmul a (invByte a)) b := by rw [gmul_invByte ha, gmul_one_left]
    _ = gmul (invByte a) (gmul a b) := by rw [gmul_comm a, gmul_assoc]
    _ = invByte a := by rw [h, gmul_one_right]

/-! ### Multiplication by the constants of MixColumns (R145) -/

theorem gmul_two (a : Byte) : gmul 2 a = xtime a := by
  rw [gmul_comm]
  simp [gmul, gmulLoop]

theorem gmul_four (a : Byte) : gmul 4 a = xtime (xtime a) := by
  rw [← gmul_two, ← gmul_two, ← gmul_assoc]; rfl

theorem gmul_eight (a : Byte) : gmul 8 a = xtime (xtime (xtime a)) := by
  rw [← gmul_four, ← gmul_two, ← gmul_assoc]; rfl

/-- Settles O8: additivity brings each law down to single bits; the constants are sums of powers of two. -/
theorem multiplicationIsAField : Obligations.MultiplicationIsAField := by
  unfold Obligations.MultiplicationIsAField
  refine ⟨gmul_comm, gmul_assoc, gmul_xor, gmul_one_left,
    fun a ha => ⟨invByte a, gmul_invByte ha, fun c => eq_invByte_of_gmul_eq_one⟩, ?_⟩
  intro a a2 a4 a8
  have h2 : gmul 2 a = a2 := gmul_two a
  have h4 : gmul 4 a = a4 := gmul_four a
  have h8 : gmul 8 a = a8 := gmul_eight a
  refine ⟨h2, ?_, ?_, ?_, ?_, ?_⟩
  · rw [show (3 : Byte) = 2 ^^^ 1 by rfl, xor_gmul, h2, gmul_one_left]
  · rw [show (9 : Byte) = 8 ^^^ 1 by rfl, xor_gmul, h8, gmul_one_left]
  · rw [show (11 : Byte) = 8 ^^^ 2 ^^^ 1 by rfl, xor_gmul, xor_gmul, h8, h2, gmul_one_left]
  · rw [show (13 : Byte) = 8 ^^^ 4 ^^^ 1 by rfl, xor_gmul, xor_gmul, h8, h4, gmul_one_left]
  · rw [show (14 : Byte) = 8 ^^^ 4 ^^^ 2 by rfl, xor_gmul, xor_gmul, h8, h4, h2]

/-! ### The S-box (R147, R158) -/

/-- The affine map of R158. -/
def affine (b : Byte) : Byte :=
  b ^^^ b.rotateLeft 1 ^^^ b.rotateLeft 2 ^^^ b.rotateLeft 3 ^^^ b.rotateLeft 4 ^^^ 0x63

theorem affine_invByte (a : Byte) : affine (invByte a) = sbox a := by revert a; decide

/-- Settles O9: the inverse that R158 names is the byte `invByte` reads back from the table. -/
theorem sboxTablesAreInverseAndAffine : Obligations.SboxTablesAreInverseAndAffine := by
  unfold Obligations.SboxTablesAreInverseAndAffine
  refine ⟨fun a => ⟨invSbox_sbox a, sbox_invSbox a⟩, by decide, fun a b h => ?_⟩
  have hb : b = invByte a := by
    obtain ⟨rfl, rfl⟩ | h := h
    · decide
    · exact eq_invByte_of_gmul_eq_one h
  rw [← affine_invByte a, ← hb]
  rfl

end Sys2Proof.Machine
end

section
/-! MixColumns and InvMixColumns as products of circulant matrices, and the laws of the seven primitives together
(40_round_primitives.md R152 to R156). -/

namespace Sys2Proof.Machine

/-! ### One column (R152, R153) -/

section Column
variable (m0 m1 m2 m3 n0 n1 n2 n3 a0 a1 a2 a3 : Byte)

/-- Such a matrix after such a matrix is one again, whose first row is the cyclic product of their first rows. -/
theorem mixByte_mixByte (r : Nat) :
    mixByte n0 n1 n2 n3 r (mixByte m0 m1 m2 m3 0 a0 a1 a2 a3) (mixByte m0 m1 m2 m3 1 a0 a1 a2 a3)
        (mixByte m0 m1 m2 m3 2 a0 a1 a2 a3) (mixByte m0 m1 m2 m3 3 a0 a1 a2 a3) =
      mixByte (gmul n0 m0 ^^^ gmul n1 m3 ^^^ gmul n2 m2 ^^^ gmul n3 m1)
        (gmul n0 m1 ^^^ gmul n1 m0 ^^^ gmul n2 m3 ^^^ gmul n3 m2)
        (gmul n0 m2 ^^^ gmul n1 m1 ^^^ gmul n2 m0 ^^^ gmul n3 m3)
        (gmul n0 m3 ^^^ gmul n1 m2 ^^^ gmul n2 m1 ^^^ gmul n3 m0) r a0 a1 a2 a3 := by
  unfold mixByte
  split <;> simp only [gmul_xor, xor_gmul, gmul_assoc] <;> ac_rfl

/-- Row `r` of the matrix with first row `1 0 0 0` is byte `r` of the column. -/
theorem mixByte_one (r : Fin 4) : mixByte 1 0 0 0 r a0 a1 a2 a3 = [a0, a1, a2, a3][r] := by
  have hzero : ∀ a : Byte, gmul 0#8 a = 0#8 := gmul_zero_left
  have hone : ∀ a : Byte, gmul 1#8 a = a := gmul_one_left
  fin_cases r <;> simp [mixByte, hzero, hone]

/-- On a column of equal bytes only the sum of the row counts. -/
theorem mixByte_same (r : Nat) : mixByte m0 m1 m2 m3 r a0 a0 a0 a0 = gmul (m0 ^^^ m1 ^^^ m2 ^^^ m3) a0 := by
  unfold mixByte
  split <;> simp only [xor_gmul] <;> ac_rfl

end Column

/-! ### Every column -/

section Block
variable (m0 m1 m2 m3 : Byte) (x : Block)

theorem readAt_mixWith {r c : Nat} (hr : r < 4) (hc : c < 4) :
    readAt (mixWith m0 m1 m2 m3 x) (r + 4 * c) =
      mixByte m0 m1 m2 m3 r (readAt x (0 + 4 * c)) (readAt x (1 + 4 * c)) (readAt x (2 + 4 * c)) (readAt x (3 + 4 * c)) := by
  have hdiv : (r + 4 * c) / 4 = c := by omega
  have hmod : (r + 4 * c) % 4 = r := by omega
  simp only [readAt_of_lt _ (show r + 4 * c < 16 by omega), readAt_of_lt _ (show 0 + 4 * c < 16 by omega),
    readAt_of_lt _ (show 1 + 4 * c < 16 by omega), readAt_of_lt _ (show 2 + 4 * c < 16 by omega),
    readAt_of_lt _ (show 3 + 4 * c < 16 by omega)]
  simp [mixWith, hdiv, hmod, Nat.add_comm]

/-- The product with the matrix, as R152 and R153 write it. -/
theorem readAt_mixWith_eq_foldl {r c : Nat} (hr : r < 4) (hc : c < 4) :
    readAt (mixWith m0 m1 m2 m3 x) (r + 4 * c) =
      (List.range 4).foldl
        (fun acc k => acc ^^^ gmul ([m0, m1, m2, m3].getD ((k + 4 - r) % 4) 0) (readAt x (k + 4 * c))) 0 := by
  rw [readAt_mixWith m0 m1 m2 m3 x hr hc]
  interval_cases r <;> simp [mixByte, List.range_succ_eq_map]

theorem readAt_mixWith_of_equal {c : Nat} (hsum : m0 ^^^ m1 ^^^ m2 ^^^ m3 = 1) (hc : c < 4)
    (h : ∀ r < 4, readAt x (r + 4 * c) = readAt x (4 * c)) {r : Nat} (hr : r < 4) :
    readAt (mixWith m0 m1 m2 m3 x) (r + 4 * c) = readAt x (r + 4 * c) := by
  rw [readAt_mixWith m0 m1 m2 m3 x hr hc, h 0 (by decide), h 1 (by decide), h 2 (by decide), h 3 (by decide), h r hr,
    mixByte_same, hsum, gmul_one_left]

/-- Two blocks that agree in a column agree in it after the product. -/
theorem readAt_mixWith_congr {y : Block} {c : Nat} (hc : c < 4)
    (h : ∀ j < 4, readAt x (4 * c + j) = readAt y (4 * c + j)) {j : Nat} (hj : j < 4) :
    readAt (mixWith m0 m1 m2 m3 x) (4 * c + j) = readAt (mixWith m0 m1 m2 m3 y) (4 * c + j) := by
  have hcolumn : ∀ k < 4, readAt x (k + 4 * c) = readAt y (k + 4 * c) := fun k hk => by
    rw [Nat.add_comm]; exact h k hk
  rw [Nat.add_comm, readAt_mixWith m0 m1 m2 m3 x hj hc, readAt_mixWith m0 m1 m2 m3 y hj hc, hcolumn 0 (by decide),
    hcolumn 1 (by decide), hcolumn 2 (by decide), hcolumn 3 (by decide)]

/-- First rows whose cyclic product is `1 0 0 0` undo each other. -/
theorem mixWith_mixWith {n0 n1 n2 n3 : Byte}
    (h0 : gmul n0 m0 ^^^ gmul n1 m3 ^^^ gmul n2 m2 ^^^ gmul n3 m1 = 1)
    (h1 : gmul n0 m1 ^^^ gmul n1 m0 ^^^ gmul n2 m3 ^^^ gmul n3 m2 = 0)
    (h2 : gmul n0 m2 ^^^ gmul n1 m1 ^^^ gmul n2 m0 ^^^ gmul n3 m3 = 0)
    (h3 : gmul n0 m3 ^^^ gmul n1 m2 ^^^ gmul n2 m1 ^^^ gmul n3 m0 = 0) :
    mixWith n0 n1 n2 n3 (mixWith m0 m1 m2 m3 x) = x := by
  refine block_ext fun i hi => ?_
  obtain ⟨r, c, hr, hc, rfl⟩ : ∃ r c, r < 4 ∧ c < 4 ∧ i = r + 4 * c := ⟨i % 4, i / 4, by omega, by omega, by omega⟩
  rw [readAt_mixWith _ _ _ _ _ hr hc]
  simp only [readAt_mixWith m0 m1 m2 m3 x (show 0 < 4 by decide) hc, readAt_mixWith m0 m1 m2 m3 x (show 1 < 4 by decide) hc,
    readAt_mixWith m0 m1 m2 m3 x (show 2 < 4 by decide) hc, readAt_mixWith m0 m1 m2 m3 x (show 3 < 4 by decide) hc]
  rw [mixByte_mixByte, h0, h1, h2, h3]
  exact (mixByte_one _ _ _ _ ⟨r, hr⟩).trans (by interval_cases r <;> rfl)

end Block

@[simp] theorem invMixColumns_mixColumns (x : Block) : invMixColumns (mixColumns x) = x :=
  mixWith_mixWith _ _ _ _ x (by decide) (by decide) (by decide) (by decide)

@[simp] theorem mixColumns_invMixColumns (x : Block) : mixColumns (invMixColumns x) = x :=
  mixWith_mixWith _ _ _ _ x (by decide) (by decide) (by decide) (by decide)

/-- Settles O12: the two commands are `mixWith` for two first rows whose cyclic product is `1 0 0 0`. -/
theorem mixColumnsMultipliesEveryColumn : Obligations.MixColumnsMultipliesEveryColumn := by
  unfold Obligations.MixColumnsMultipliesEveryColumn
  refine ⟨rfl, rfl, computesBlock_of_blockPipeline rfl, fun x _ _ hr hc => readAt_mixWith_eq_foldl _ _ _ _ x hr hc,
    fun x _ hc h _ hr => readAt_mixWith_of_equal _ _ _ _ x (by decide) hc h hr, ?_, ?_, ?_,
    rfl, rfl, computesBlock_of_blockPipeline rfl, fun x _ _ hr hc => readAt_mixWith_eq_foldl _ _ _ _ x hr hc,
    fun x _ hc h _ hr => readAt_mixWith_of_equal _ _ _ _ x (by decide) hc h hr,
    fun x => ⟨invMixColumns_mixColumns x, mixColumns_invMixColumns x⟩, ?_, ?_⟩
  all_goals decide

/-! ### The seven primitives together (R155, R156) -/

theorem readAt_subBytes (x : Block) {i : Nat} (h : i < 16) : readAt (subBytes x) i = sbox (readAt x i) := by
  rw [readAt_of_lt _ h, readAt_of_lt _ h, getElem_subBytes]

theorem readAt_invSubBytes (x : Block) {i : Nat} (h : i < 16) : readAt (invSubBytes x) i = invSbox (readAt x i) := by
  rw [readAt_of_lt _ h, readAt_of_lt _ h, getElem_invSubBytes]

theorem subBytes_shiftRows (x : Block) : subBytes (shiftRows x) = shiftRows (subBytes x) :=
  block_ext fun i hi => by
    rw [readAt_subBytes _ hi, readAt_shiftRows x hi, readAt_shiftRows _ hi, readAt_subBytes x (by omega)]

theorem invSubBytes_invShiftRows (x : Block) : invSubBytes (invShiftRows x) = invShiftRows (invSubBytes x) :=
  block_ext fun i hi => by
    rw [readAt_invSubBytes _ hi, readAt_invShiftRows x hi, readAt_invShiftRows _ hi, readAt_invSubBytes x (by omega)]

/-- Settles O15, from the laws of each primitive. -/
theorem primitivesUndoTheirInverses : Obligations.PrimitivesUndoTheirInverses := by
  unfold Obligations.PrimitivesUndoTheirInverses
  exact fun x k => ⟨invSubBytes_subBytes x, subBytes_invSubBytes x, invShiftRows_shiftRows x, shiftRows_invShiftRows x,
    invMixColumns_mixColumns x, mixColumns_invMixColumns x, addRoundKey_addRoundKey x k, subBytes_shiftRows x,
    invSubBytes_invShiftRows x⟩

/-- Settles O16: what each primitive leaves in a byte names only bytes of its lane; row `r` goes `r` places one way or
`4 - r` the other. -/
theorem primitivesActOnTheirLanes : Obligations.PrimitivesActOnTheirLanes := by
  unfold Obligations.PrimitivesActOnTheirLanes
  refine ⟨fun x y i hxy => ⟨?_, ?_, fun k l hkl => ?_⟩, fun x y c hc h j hj =>
    ⟨readAt_mixWith_congr _ _ _ _ x hc h hj, readAt_mixWith_congr _ _ _ _ x hc h hj⟩, fun x r hr =>
    ⟨r, 4 - r, fun c hc => ⟨readAt_shiftRows_row x hr hc, ?_⟩⟩⟩
  · simpa using congrArg sbox hxy
  · simpa using congrArg invSbox hxy
  · simpa using congrArg₂ (· ^^^ ·) hxy hkl
  · rw [readAt_invShiftRows_row x hr hc]
    exact congrArg (readAt x) (by omega)

end Sys2Proof.Machine
end

section
/-! The schedule as a recurrence on words, and the two directions of the block core as inverses of each other
(41_key_schedule.md R183 to R188; 42_block_core.md R205, R209). -/

namespace Sys2Proof.Machine

open Sys2Proof.Safety

/-! ### Words and blocks (R66) -/

theorem getElem_blockOfWords (w : Vector Word 4) {i : Nat} (h : i < 16) :
    (blockOfWords w)[i] = w[i / 4].extractLsb' (24 - 8 * (i % 4)) 8 := by
  simp [blockOfWords]

/-- A word is its four bytes. -/
theorem append_bytes (x : Word) :
    x.extractLsb' 24 8 ++ x.extractLsb' 16 8 ++ x.extractLsb' 8 8 ++ x.extractLsb' 0 8 = x := by
  iterate 3 rw [BitVec.extractLsb'_append_extractLsb'_eq_extractLsb' (by rfl)]
  exact BitVec.extractLsb'_eq_self

@[simp] theorem wordOfBlock_blockOfWords (w : Vector Word 4) (j : Fin 4) : wordOfBlock (blockOfWords w) j = w[j] := by
  simp only [wordOfBlock, getElem_blockOfWords]
  fin_cases j <;> exact append_bytes _

@[simp] theorem blockOfWords_wordOfBlock (x : Block) : blockOfWords (Vector.ofFn fun j => wordOfBlock x j) = x := by
  refine Vector.ext fun i hi => ?_
  rw [getElem_blockOfWords _ hi]
  interval_cases i <;> simp [wordOfBlock]

/-! ### The words of a schedule (R184, R185) -/

/-- The round constant of round key `n + 1` (R183). -/
def roundConstant (n : Nat) : Byte := Nat.repeat xtime n Config.rcInit

/-- The four words of round key `n` of a key (R184). -/
def scheduleWords (key : Block) : Nat → Vector Word 4
  | 0 => Vector.ofFn fun j => wordOfBlock key j
  | n + 1 => nextWords (scheduleWords key n) (roundConstant n)

theorem repeat_expandRound_w_rc (key : Block) (r : ScheduleRegs) (n : Nat) :
    (Nat.repeat expandRound n (expandStart key r)).w = scheduleWords key n ∧
      (Nat.repeat expandRound n (expandStart key r)).rc = roundConstant n := by
  induction n with
  | zero => exact ⟨rfl, rfl⟩
  | succ n ih =>
    obtain ⟨hw, hrc⟩ := ih
    simp only [Nat.repeat, expandRound, hw, hrc]
    exact ⟨rfl, rfl⟩

/-- Pass `i` of the loop makes round key `i`, and the later passes leave it. -/
theorem getElem_rk_expand (key : Block) (r : ScheduleRegs) {i n : Nat} (hi : i ≤ n) (hn : n ≤ 10) :
    (Nat.repeat expandRound n (expandStart key r)).rk[i] = blockOfWords (scheduleWords key i) := by
  induction n with
  | zero =>
    obtain rfl : i = 0 := by omega
    simp [Nat.repeat, expandStart, scheduleWords]
  | succ n ih =>
    have hkrnd : (Nat.repeat expandRound n (expandStart key r)).krnd.toNat = n + 1 := by
      have hfirst : (expandStart key r).krnd.toNat = 1 := rfl
      rw [krnd_repeat_expandRound, BitVec.toNat_add, BitVec.toNat_ofNat, hfirst]
      omega
    obtain ⟨hw, -⟩ := repeat_expandRound_w_rc key r (n + 1)
    rcases Nat.lt_or_eq_of_le hi with hlt | rfl
    · rw [← ih (by omega) (by omega)]
      exact Vector.getElem_setIfInBounds_ne (by omega) (by omega)
    · rw [← hw]
      simp only [Nat.repeat, expandRound, hkrnd]
      exact Vector.getElem_setIfInBounds_self (by omega)

theorem getElem_keyExpand_rk (key : Block) (r : ScheduleRegs) {i : Nat} (hi : i < 11) :
    (keyExpand .k128 key r).rk[i] = blockOfWords (scheduleWords key i) :=
  getElem_rk_expand key r (by omega) (le_refl 10)

/-- The round keys depend on the key alone. -/
theorem keyExpand_rk (key : Block) (r : ScheduleRegs) : (keyExpand .k128 key r).rk = scheduleOf key :=
  Vector.ext fun i hi => by rw [scheduleOf, getElem_keyExpand_rk key r hi, getElem_keyExpand_rk key _ hi]

/-! ### The 44-word recurrence (R188) -/

/-- Word `n` of the schedule of a key. -/
def scheduleWord (key : Block) (n : Nat) : Word := (scheduleWords key (n / 4))[n % 4]

theorem wordOfBlock_roundKeyAt (key : Block) (r : ScheduleRegs) {n : Nat} (hn : n < 44) :
    wordOfBlock (roundKeyAt (keyExpand .k128 key r).rk (n / 4)) (Fin.ofNat 4 n) = scheduleWord key n := by
  rw [roundKeyAt_of_lt _ (by omega), getElem_keyExpand_rk key r (by omega), wordOfBlock_blockOfWords]
  rfl

theorem scheduleWord_eq (key : Block) (q : Nat) {j : Nat} (hj : j < 4) :
    scheduleWord key (4 * q + j) = (scheduleWords key q)[j] := by
  have hdiv : (4 * q + j) / 4 = q := by omega
  have hmod : (4 * q + j) % 4 = j := by omega
  simp only [scheduleWord, hdiv, hmod]

/-- Words 1 to 3 of a round key. -/
theorem scheduleWord_of_mod_ne_zero (key : Block) {n : Nat} (hn : 4 ≤ n) (hmod : n % 4 ≠ 0) :
    scheduleWord key n = scheduleWord key (n - 4) ^^^ scheduleWord key (n - 1) := by
  obtain ⟨q, j, hj, rfl⟩ : ∃ q j, j < 3 ∧ n = 4 * (q + 1) + (j + 1) := ⟨n / 4 - 1, n % 4 - 1, by omega, by omega⟩
  have h4 : 4 * (q + 1) + (j + 1) - 4 = 4 * q + (j + 1) := by omega
  have h1 : 4 * (q + 1) + (j + 1) - 1 = 4 * (q + 1) + j := by omega
  rw [h4, h1, scheduleWord_eq key _ (by omega), scheduleWord_eq key _ (by omega), scheduleWord_eq key _ (by omega)]
  interval_cases j <;> rfl

/-- Word 0 of a round key. -/
theorem scheduleWord_of_mod_eq_zero (key : Block) {n : Nat} (hn : 4 ≤ n) (hmod : n % 4 = 0) :
    scheduleWord key n = scheduleWord key (n - 4) ^^^ subWord (rotWord (scheduleWord key (n - 1))) ^^^
      rcWord (roundConstant (n / 4 - 1)) := by
  obtain ⟨q, rfl⟩ : ∃ q, n = 4 * (q + 1) + 0 := ⟨n / 4 - 1, by omega⟩
  have h4 : 4 * (q + 1) + 0 - 4 = 4 * q + 0 := by omega
  have h1 : 4 * (q + 1) + 0 - 1 = 4 * q + 3 := by omega
  have hdiv : (4 * (q + 1) + 0) / 4 - 1 = q := by omega
  rw [h4, h1, hdiv, scheduleWord_eq key _ (by omega), scheduleWord_eq key _ (by omega), scheduleWord_eq key _ (by omega),
    BitVec.xor_assoc]
  rfl

/-- Settles O18: the words of the round keys are those of `scheduleWords`, whatever the registers held. -/
theorem scheduleFollowsTheRecurrence : Obligations.ScheduleFollowsTheRecurrence := by
  unfold Obligations.ScheduleFollowsTheRecurrence
  refine ⟨by decide, by decide, ?_⟩
  intro key r e word
  have hword : ∀ n < 44, word n = scheduleWord key n := fun n hn => wordOfBlock_roundKeyAt key r hn
  refine ⟨rfl, ?_, fun n h4 h44 hmod => ?_, fun n h4 h44 hmod => ?_, keyExpand_rk key r⟩
  · rw [roundKeyAt_of_lt _ (by decide)]
    exact keyExpand_k128_rk_zero key r
  · rw [hword n h44, hword _ (by omega), hword _ (by omega)]
    exact scheduleWord_of_mod_ne_zero key h4 hmod
  · rw [hword n h44, hword _ (by omega), hword _ (by omega)]
    exact scheduleWord_of_mod_eq_zero key h4 hmod

/-! ### The inverse sequencer (R205) -/

/-- Settles O22: each line is a line of `inverseLine` as written, and the run goes application by application. -/
theorem inverseSequencerComputesDecrypt : Obligations.InverseSequencerComputesDecrypt := by
  unfold Obligations.InverseSequencerComputesDecrypt
  exact ⟨rfl, fun j _ _ => ⟨rfl, rfl, rfl, fun _ => rfl⟩, rfl, seqRun_inv⟩

/-! ### Decrypting and encrypting (R209) -/

/-- An application undoes the round with the same round key, seen before its AddRoundKey. -/
theorem decryptRound_encryptRound (rk : RoundKeys) (s : Block) {i j : Nat} (h : i = 10 - j) :
    decryptRound rk (shiftRows (subBytes (encryptRound rk s i))) j = shiftRows (subBytes s) := by
  simp [decryptRound, encryptRound, h]

theorem encryptRound_decryptRound (rk : RoundKeys) (s : Block) {i j : Nat} (h : i = 10 - j) :
    encryptRound rk (invSubBytes (invShiftRows (decryptRound rk s j))) i = invSubBytes (invShiftRows s) := by
  simp [decryptRound, encryptRound, h]

theorem decrypt_encrypt (rk : RoundKeys) (x : Block) : decrypt rk (encrypt rk x) = x := by
  simp [decrypt, encrypt, decryptRound_encryptRound]

theorem encrypt_decrypt (rk : RoundKeys) (x : Block) : encrypt rk (decrypt rk x) = x := by
  simp [decrypt, encrypt, encryptRound_decryptRound]

/-- Settles O23, round by round from the middle. -/
theorem decryptAndEncryptUndoEachOther : Obligations.DecryptAndEncryptUndoEachOther := by
  unfold Obligations.DecryptAndEncryptUndoEachOther
  exact fun rk x => ⟨decrypt_encrypt rk x, encrypt_decrypt rk x⟩

end Sys2Proof.Machine
end

section
/-! Ownership: what one worker may read and write (10_state.md R38). -/

namespace Sys2Proof.Machine

open Sys2Proof.Safety

/-! ### What a worker reads and writes (R38) -/

/-- ONESHOT and ENGINE are the workers that run the block core. -/
def UsesCore (w : Worker) : Prop := w = .oneshot ∨ w = .engine

/-- The two states agree on all that the worker may read: the latches, the round-key store, its own registers and, if it
runs it, the block core. -/
structure SameView (w : Worker) (s t : State) : Prop where
  latch : t.latch = s.latch
  sched : t.sched = s.sched
  core : UsesCore w → t.core = s.core
  one : w = .oneshot → t.one = s.one
  eng : w = .engine → t.eng = s.eng
  pad : w = .pad → t.pad = s.pad
  unp : w = .unpad → t.unp = s.unp

/-- From `s` to `t` only what the worker owns changes: its own registers and, if it runs it, the block core. -/
structure WritesOnly (w : Worker) (s t : State) : Prop where
  top : t.top = s.top
  latch : t.latch = s.latch
  sched : t.sched = s.sched
  core : ¬UsesCore w → t.core = s.core
  one : w ≠ .oneshot → t.one = s.one
  eng : w ≠ .engine → t.eng = s.eng
  pad : w ≠ .pad → t.pad = s.pad
  unp : w ≠ .unpad → t.unp = s.unp
  env : t.env = s.env
  edges : t.edges = s.edges

/-- Two different workers that do not both run the block core. -/
def Apart (u w : Worker) : Prop := u ≠ w ∧ ¬(UsesCore u ∧ UsesCore w)

theorem Apart.symm {u w : Worker} (h : Apart u w) : Apart w u := ⟨h.1.symm, fun hb => h.2 hb.symm⟩

/-- The state with another host, `TOP` and edge count: the parts that no worker reads or writes. -/
def withHost (top : Top) (env : Env) (edges : Nat) (s : State) : State := { s with top := top, env := env, edges := edges }

/-! #### Views -/

section View
variable {w : Worker} {s t u : State}

theorem SameView.refl (w : Worker) (s : State) : SameView w s s :=
  ⟨rfl, rfl, fun _ => rfl, fun _ => rfl, fun _ => rfl, fun _ => rfl, fun _ => rfl⟩

theorem SameView.symm (h : SameView w s t) : SameView w t s :=
  ⟨h.latch.symm, h.sched.symm, fun hw => (h.core hw).symm, fun hw => (h.one hw).symm, fun hw => (h.eng hw).symm,
    fun hw => (h.pad hw).symm, fun hw => (h.unp hw).symm⟩

theorem SameView.trans (hst : SameView w s t) (htu : SameView w t u) : SameView w s u :=
  ⟨htu.latch.trans hst.latch, htu.sched.trans hst.sched, fun hw => (htu.core hw).trans (hst.core hw),
    fun hw => (htu.one hw).trans (hst.one hw), fun hw => (htu.eng hw).trans (hst.eng hw),
    fun hw => (htu.pad hw).trans (hst.pad hw), fun hw => (htu.unp hw).trans (hst.unp hw)⟩

theorem sameView_withHost (w : Worker) (top : Top) (env : Env) (edges : Nat) (s : State) :
    SameView w s (withHost top env edges s) :=
  ⟨rfl, rfl, fun _ => rfl, fun _ => rfl, fun _ => rfl, fun _ => rfl, fun _ => rfl⟩

theorem hostSent_eq_withHost (x : Item) (s : State) :
    hostSent x s = withHost s.top { s.env with input := offersAfter x s.env.input } s.edges s := rfl

theorem hostTook_eq_withHost (x : Item) (s : State) :
    hostTook x s = withHost (if isTerminal (some x) then .idle else s.top)
      { s.env with taken := s.env.taken ++ [x] } s.edges s := by
  cases x <;> rfl

theorem closeEdge_eq_withHost (s : State) :
    closeEdge s = withHost s.top { s.env with moves := s.env.moves.tail } (s.edges + 1) s := rfl

theorem sameView_hostSent (w : Worker) (x : Item) (s : State) : SameView w s (hostSent x s) := sameView_withHost ..

theorem sameView_hostTook (w : Worker) (x : Item) (s : State) : SameView w s (hostTook x s) := by
  rw [hostTook_eq_withHost]; exact sameView_withHost ..

theorem sameView_closeEdge (w : Worker) (s : State) : SameView w s (closeEdge s) := sameView_withHost ..

theorem SameView.workerFilling_eq (h : SameView w s t) : workerFilling w t = workerFilling w s := by
  cases w with
  | oneshot => rfl
  | pad => simp only [workerFilling, h.pad rfl]
  | engine => simp only [workerFilling, h.eng rfl]
  | unpad => simp only [workerFilling, h.unp rfl]

theorem SameView.workerTerminal_eq (h : SameView w s t) : workerTerminal w t = workerTerminal w s := by
  cases w with
  | oneshot => simp only [workerTerminal, h.one rfl]
  | pad => simp only [workerTerminal, h.pad rfl]
  | engine => simp only [workerTerminal, h.eng rfl]
  | unpad => simp only [workerTerminal, h.unp rfl]

theorem SameView.workerDone_eq (h : SameView w s t) : workerDone w t = workerDone w s := by
  cases w with
  | oneshot => simp only [workerDone, h.one rfl]
  | pad => simp only [workerDone, h.pad rfl]
  | engine => simp only [workerDone, h.eng rfl]
  | unpad => simp only [workerDone, h.unp rfl]

end View

/-! #### Writes -/

section Writes
variable {u w : Worker} {s t : State}

theorem WritesOnly.refl (w : Worker) (s : State) : WritesOnly w s s :=
  ⟨rfl, rfl, rfl, fun _ => rfl, fun _ => rfl, fun _ => rfl, fun _ => rfl, fun _ => rfl, rfl, rfl⟩

theorem writesOnly_oneshot (s : State) (c : CoreRegs) (r : OneshotRegs) :
    WritesOnly .oneshot s { s with core := c, one := r } :=
  ⟨rfl, rfl, rfl, fun h => absurd (.inl rfl) h, fun h => absurd rfl h, fun _ => rfl, fun _ => rfl, fun _ => rfl, rfl, rfl⟩

theorem writesOnly_engine (s : State) (c : CoreRegs) (r : EngineRegs) :
    WritesOnly .engine s { s with core := c, eng := r } :=
  ⟨rfl, rfl, rfl, fun h => absurd (.inr rfl) h, fun _ => rfl, fun h => absurd rfl h, fun _ => rfl, fun _ => rfl, rfl, rfl⟩

theorem writesOnly_pad (s : State) (r : PadRegs) : WritesOnly .pad s { s with pad := r } :=
  ⟨rfl, rfl, rfl, fun _ => rfl, fun _ => rfl, fun _ => rfl, fun h => absurd rfl h, fun _ => rfl, rfl, rfl⟩

theorem writesOnly_unpad (s : State) (r : UnpadRegs) : WritesOnly .unpad s { s with unp := r } :=
  ⟨rfl, rfl, rfl, fun _ => rfl, fun _ => rfl, fun _ => rfl, fun _ => rfl, fun h => absurd rfl h, rfl, rfl⟩

/-- What one worker writes another does not see. -/
theorem WritesOnly.sameView (h : WritesOnly u s t) (hapart : Apart u w) : SameView w s t :=
  ⟨h.latch, h.sched, fun hw => h.core fun hu => hapart.2 ⟨hu, hw⟩, fun hw => h.one (hw ▸ hapart.1),
    fun hw => h.eng (hw ▸ hapart.1), fun hw => h.pad (hw ▸ hapart.1), fun hw => h.unp (hw ▸ hapart.1)⟩

theorem state_ext {t : State} (top : t.top = s.top) (latch : t.latch = s.latch) (sched : t.sched = s.sched)
    (core : t.core = s.core) (one : t.one = s.one) (eng : t.eng = s.eng) (pad : t.pad = s.pad) (unp : t.unp = s.unp)
    (env : t.env = s.env) (edges : t.edges = s.edges) : t = s := by
  cases s; cases t; simp_all

/-- One group of registers in the square of two actions, owned by the first under `p` and by the second under `q`. -/
theorem diamond_registers {α : Type} {p q : Prop} {r r₁ r₂ r₁₂ r₂₁ : α} (hpq : ¬(p ∧ q)) (h₁ : ¬p → r₁ = r)
    (h₂ : ¬q → r₂ = r) (h₁₂ : ¬q → r₁₂ = r₁) (h₂₁ : ¬p → r₂₁ = r₂) (hp : p → r₂₁ = r₁) (hq : q → r₁₂ = r₂) : r₁₂ = r₂₁ := by
  by_cases hpp : p
  · have hqq : ¬q := fun hqq => hpq ⟨hpp, hqq⟩
    rw [h₁₂ hqq, hp hpp]
  · by_cases hqq : q
    · rw [h₂₁ hpp, hq hqq]
    · rw [h₁₂ hqq, h₂₁ hpp, h₁ hpp, h₂ hqq]

/-- Two workers that are apart may act in either order: what each writes is fixed by its own view. -/
theorem WritesOnly.diamond {t₁ t₂ t₁₂ t₂₁ : State} (hapart : Apart u w) (hu : WritesOnly u s t₁) (hw : WritesOnly w s t₂)
    (hw' : WritesOnly w t₁ t₁₂) (hu' : WritesOnly u t₂ t₂₁) (hviewU : SameView u t₁ t₂₁) (hviewW : SameView w t₂ t₁₂) :
    t₁₂ = t₂₁ := by
  have howner : ∀ o : Worker, ¬(u = o ∧ w = o) := fun o h => hapart.1 (h.1.trans h.2.symm)
  exact state_ext (by rw [hw'.top, hu'.top, hu.top, hw.top]) (by rw [hw'.latch, hu'.latch, hu.latch, hw.latch])
    (by rw [hw'.sched, hu'.sched, hu.sched, hw.sched])
    (diamond_registers hapart.2 hu.core hw.core hw'.core hu'.core hviewU.core hviewW.core)
    (diamond_registers (howner _) hu.one hw.one hw'.one hu'.one hviewU.one hviewW.one)
    (diamond_registers (howner _) hu.eng hw.eng hw'.eng hu'.eng hviewU.eng hviewW.eng)
    (diamond_registers (howner _) hu.pad hw.pad hw'.pad hu'.pad hviewU.pad hviewW.pad)
    (diamond_registers (howner _) hu.unp hw.unp hw'.unp hu'.unp hviewU.unp hviewW.unp)
    (by rw [hw'.env, hu'.env, hu.env, hw.env]) (by rw [hw'.edges, hu'.edges, hu.edges, hw.edges])

/-- One group of registers that a worker owns under `p`, written from two states that agree in it. -/
theorem same_registers {α : Type} {p : Prop} {r r₁ r₂ : α} (h₁ : ¬p → r₁ = r) (h₂ : ¬p → r₂ = r) (hp : p → r₂ = r₁) :
    r₂ = r₁ := by
  by_cases hpp : p
  · exact hp hpp
  · rw [h₁ hpp, h₂ hpp]

/-- The host may be replaced before or after a worker acts. -/
theorem WritesOnly.withHost_eq {top : Top} {env : Env} {edges : Nat} {t' : State} (h : WritesOnly w s t)
    (h' : WritesOnly w (withHost top env edges s) t') (hview : SameView w t t') : t' = withHost top env edges t :=
  state_ext h'.top (by rw [h'.latch]; exact h.latch.symm) (by rw [h'.sched]; exact h.sched.symm)
    (same_registers h.core h'.core hview.core) (same_registers h.one h'.one hview.one)
    (same_registers h.eng h'.eng hview.eng) (same_registers h.pad h'.pad hview.pad)
    (same_registers h.unp h'.unp hview.unp) h'.env h'.edges

end Writes

end Sys2Proof.Machine
end

section
/-! The workers as units: each of the four keeps to its own registers, and does one thing at a time (10_state.md R38,
45_stream_pipeline.md R300). -/

namespace Sys2Proof.Machine

open Sys2Proof.Safety

/-! ### The view after an action, from the view before it -/

section Views
variable {w : Worker} {s s' t t' : State} (hview : SameView w s s') (h : WritesOnly w s t) (h' : WritesOnly w s' t')
include hview h h'

theorem SameView.latch_after : t'.latch = t.latch := by rw [h'.latch, hview.latch, h.latch]

theorem SameView.sched_after : t'.sched = t.sched := by rw [h'.sched, hview.sched, h.sched]

theorem SameView.after_oneshot (hw : w = .oneshot) (hcore : t'.core = t.core) (hone : t'.one = t.one) : SameView w t t' :=
  ⟨hview.latch_after h h', hview.sched_after h h', fun _ => hcore, fun _ => hone, by simp [hw], by simp [hw], by simp [hw]⟩

theorem SameView.after_engine (hw : w = .engine) (hcore : t'.core = t.core) (heng : t'.eng = t.eng) : SameView w t t' :=
  ⟨hview.latch_after h h', hview.sched_after h h', fun _ => hcore, by simp [hw], fun _ => heng, by simp [hw], by simp [hw]⟩

theorem SameView.after_pad (hw : w = .pad) (hpad : t'.pad = t.pad) : SameView w t t' :=
  ⟨hview.latch_after h h', hview.sched_after h h', by simp [hw, UsesCore], by simp [hw], by simp [hw], fun _ => hpad,
    by simp [hw]⟩

theorem SameView.after_unpad (hw : w = .unpad) (hunp : t'.unp = t.unp) : SameView w t t' :=
  ⟨hview.latch_after h h', hview.sched_after h h', by simp [hw, UsesCore], by simp [hw], by simp [hw], by simp [hw],
    fun _ => hunp⟩

end Views

/-- A pipeline that is one worker alone: it reads and writes that worker's part of the state, and in every state it
computes, receives, offers or does nothing. -/
structure Pipeline.RunBy (p : Pipeline) (w : Worker) : Prop where
  receive_writes : ∀ x s, WritesOnly w s (p.receive x s)
  sent_writes : ∀ s, WritesOnly w s (p.sent s)
  inner_writes : ∀ {s t}, p.inner s = some t → WritesOnly w s t
  receive_view : ∀ x {s s'}, SameView w s s' → SameView w (p.receive x s) (p.receive x s')
  sent_view : ∀ {s s'}, SameView w s s' → SameView w (p.sent s) (p.sent s')
  inner_view : ∀ {s s' t}, SameView w s s' → p.inner s = some t → ∃ t', p.inner s' = some t' ∧ SameView w t t'
  offer_view : ∀ {s s'}, SameView w s s' → p.offer s' = p.offer s
  filling_eq : ∀ s, p.filling s = workerFilling w s
  offer_term : ∀ {s t}, p.offer s = some (.term t) ↔ workerTerminal w s = some t
  inner_alone : ∀ {s t}, p.inner s = some t → p.filling s = false ∧ p.offer s = none
  offer_alone : ∀ {s x}, p.offer s = some x → p.filling s = false
  sent_term : ∀ {s t}, workerTerminal w s = some t → workerDone w (p.sent s) = true
  done_quiet : ∀ {s}, workerDone w s = true → p.filling s = false ∧ p.offer s = none ∧ p.inner s = none

/-! ### PAD -/

theorem padReceive_writesOnly (x : Item) (s : State) : WritesOnly .pad s (padReceive x s) := by
  rw [(padReceive_frame x s).1]; exact writesOnly_pad ..

theorem padSent_writesOnly (s : State) : WritesOnly .pad s (padSent s) := by
  rw [(padSent_frame s).1]; exact writesOnly_pad ..

theorem padPipeline_runBy : padPipeline.RunBy .pad where
  receive_writes := padReceive_writesOnly
  sent_writes := padSent_writesOnly
  inner_writes h := nomatch h
  receive_view x _ _ h := h.after_pad (padReceive_writesOnly ..) (padReceive_writesOnly ..) rfl
    ((padReceive_frame x _).2 _ (h.pad rfl) h.latch)
  sent_view h := h.after_pad (padSent_writesOnly _) (padSent_writesOnly _) rfl
    ((padSent_frame _).2 _ (h.pad rfl) h.latch)
  inner_view _ h := nomatch h
  offer_view h := by simp only [padPipeline, padOffer, h.pad rfl]
  filling_eq _ := rfl
  offer_term := by
    intro s t
    cases hst : s.pad.pst <;> simp [padPipeline, padOffer, workerTerminal, hst]
  inner_alone h := nomatch h
  offer_alone := by
    intro s x h
    cases hst : s.pad.pst <;> simp [padPipeline, padOffer, hst] at h ⊢
  sent_term := by
    intro s t h
    cases hst : s.pad.pst <;> simp [padPipeline, padSent, workerTerminal, workerDone, hst] at h ⊢
  done_quiet := by
    intro s h
    cases hst : s.pad.pst <;> simp [padPipeline, padOffer, workerDone, hst] at h ⊢

/-! ### UNPAD -/

theorem unpadReceive_writesOnly (x : Item) (s : State) : WritesOnly .unpad s (unpadReceive x s) := by
  rw [(unpadReceive_frame x s).1]; exact writesOnly_unpad ..

theorem unpadSent_writesOnly (s : State) : WritesOnly .unpad s (unpadSent s) := by
  rw [(unpadSent_frame s).1]; exact writesOnly_unpad ..

theorem unpadPipeline_runBy : unpadPipeline.RunBy .unpad where
  receive_writes := unpadReceive_writesOnly
  sent_writes := unpadSent_writesOnly
  inner_writes h := nomatch h
  receive_view x _ _ h := h.after_unpad (unpadReceive_writesOnly ..) (unpadReceive_writesOnly ..) rfl
    ((unpadReceive_frame x _).2 _ (h.unp rfl) h.latch)
  sent_view h := h.after_unpad (unpadSent_writesOnly _) (unpadSent_writesOnly _) rfl
    ((unpadSent_frame _).2 _ (h.unp rfl))
  inner_view _ h := nomatch h
  offer_view h := by simp only [unpadPipeline, unpadOffer, h.unp rfl]
  filling_eq _ := rfl
  offer_term := by
    intro s t
    cases hst : s.unp.ust <;> simp [unpadPipeline, unpadOffer, workerTerminal, hst]
  inner_alone h := nomatch h
  offer_alone := by
    intro s x h
    cases hst : s.unp.ust <;> simp [unpadPipeline, unpadOffer, hst] at h ⊢
  sent_term := by
    intro s t h
    cases hst : s.unp.ust <;> simp [unpadPipeline, unpadSent, workerTerminal, workerDone, hst] at h ⊢
  done_quiet := by
    intro s h
    cases hst : s.unp.ust <;> simp [unpadPipeline, unpadOffer, workerDone, hst] at h ⊢

/-! ### ENGINE -/

theorem engineReceive_writesOnly (x : Item) (s : State) : WritesOnly .engine s (engineReceive x s) := by
  rw [(engineReceive_frame x s).1]; exact writesOnly_engine s s.core _

theorem engineSent_writesOnly (s : State) : WritesOnly .engine s (engineSent s) := by
  rw [(engineSent_frame s).1]; exact writesOnly_engine s s.core _

@[simp] theorem engineReceive_core (x : Item) (s : State) : (engineReceive x s).core = s.core := by
  rw [(engineReceive_frame x s).1]

@[simp] theorem engineSent_core (s : State) : (engineSent s).core = s.core := by rw [(engineSent_frame s).1]

/-- `E_XFORM` in a mode, in one record (R233 to R235). -/
theorem engineXform_modeStep (m : ChainMode) (s : State) :
    engineXform (modeStep m) s = if s.sched.rkn = 11 then
        { s with
          core := { sreg := coreResult m s.sched.rk s.eng.ibuf s.eng.fb, rnd := 10, ph := .done },
          eng := { ibuf := s.eng.ibuf, icnt := 0, obuf := blockStepOutput m s.sched.rk s.eng.ibuf s.eng.fb, ocnt := 0,
                   fb := blockStepFeedback m s.sched.rk s.eng.ibuf s.eng.fb, est := .drain } }
      else { s with eng.est := .term (.fail .ise) } := by
  by_cases hvalid : s.sched.rkn = 11
  · rw [engineXform_of_ok (modeStep_of_valid hvalid m), if_pos hvalid]
  · rw [engineXform_of_error (modeStep_of_empty hvalid m), if_neg hvalid]

theorem engineXform_writesOnly (m : ChainMode) (s : State) : WritesOnly .engine s (engineXform (modeStep m) s) := by
  rw [engineXform_modeStep]
  split
  · exact writesOnly_engine ..
  · exact writesOnly_engine s s.core _

theorem engineXform_view (m : ChainMode) {s s' : State} (h : SameView .engine s s') :
    SameView .engine (engineXform (modeStep m) s) (engineXform (modeStep m) s') := by
  have hsched := h.sched
  have hcore := h.core (.inr rfl)
  have heng := h.eng rfl
  refine h.after_engine (engineXform_writesOnly ..) (engineXform_writesOnly ..) rfl ?_ ?_
  · simp only [engineXform_modeStep, hsched, heng]; split <;> simp [hcore]
  · simp only [engineXform_modeStep, hsched, heng]; split <;> simp

theorem enginePipeline_runBy (m : ChainMode) : (enginePipeline (modeStep m)).RunBy .engine where
  receive_writes := engineReceive_writesOnly
  sent_writes := engineSent_writesOnly
  inner_writes := by
    intro s t h
    obtain ⟨-, rfl⟩ : s.eng.est = .xform ∧ engineXform (modeStep m) s = t := by
      simpa [enginePipeline, engineInner] using h
    exact engineXform_writesOnly m s
  receive_view x s s' h := h.after_engine (engineReceive_writesOnly ..) (engineReceive_writesOnly ..) rfl
    (by simp [enginePipeline, h.core (.inr rfl)])
    ((engineReceive_frame x _).2 _ (h.eng rfl))
  sent_view {s s'} h := h.after_engine (engineSent_writesOnly _) (engineSent_writesOnly _) rfl
    (by simp [enginePipeline, h.core (.inr rfl)])
    ((engineSent_frame _).2 _ (h.eng rfl))
  inner_view := by
    intro s s' t hview h
    obtain ⟨hst, rfl⟩ : s.eng.est = .xform ∧ engineXform (modeStep m) s = t := by
      simpa [enginePipeline, engineInner] using h
    exact ⟨_, if_pos (by rw [hview.eng rfl, hst]), engineXform_view m hview⟩
  offer_view h := by simp only [enginePipeline, engineOffer, h.eng rfl]
  filling_eq _ := rfl
  offer_term := by
    intro s t
    cases hst : s.eng.est <;> simp [enginePipeline, engineOffer, workerTerminal, hst]
  inner_alone := by
    intro s t h
    cases hst : s.eng.est <;> simp [enginePipeline, engineInner, engineOffer, hst] at h ⊢
  offer_alone := by
    intro s x h
    cases hst : s.eng.est <;> simp [enginePipeline, engineOffer, hst] at h ⊢
  sent_term := by
    intro s t h
    cases hst : s.eng.est <;> simp [enginePipeline, engineSent, workerTerminal, workerDone, hst] at h ⊢
  done_quiet := by
    intro s h
    cases hst : s.eng.est <;> simp [enginePipeline, engineOffer, engineInner, workerDone, hst] at h ⊢

/-! ### ONESHOT -/

theorem blockSent_writesOnly (s : State) : WritesOnly .oneshot s (blockSent s) := by
  rw [(blockSent_frame s).1]; exact writesOnly_oneshot s s.core _

theorem keysSent_writesOnly (s : State) : WritesOnly .oneshot s (keysSent s) := by
  rw [(keysSent_frame s).1]; exact writesOnly_oneshot s s.core _

@[simp] theorem blockSent_core (s : State) : (blockSent s).core = s.core := by rw [(blockSent_frame s).1]

@[simp] theorem keysSent_core (s : State) : (keysSent s).core = s.core := by rw [(keysSent_frame s).1]

theorem computeKeySched_writesOnly (s : State) : WritesOnly .oneshot s (computeKeySched s) := by
  rw [computeKeySched_eq]; exact writesOnly_oneshot s s.core _

theorem computeBlock_writesOnly (d : Direction) (s : State) : WritesOnly .oneshot s (computeBlock d s) := by
  rw [computeBlock_eq]
  split
  · exact writesOnly_oneshot ..
  · exact writesOnly_oneshot s s.core _

theorem computeBlock_view (d : Direction) {s s' : State} (h : SameView .oneshot s s') :
    SameView .oneshot (computeBlock d s) (computeBlock d s') := by
  have hlatch := h.latch
  have hsched := h.sched
  have hcore := h.core (.inl rfl)
  have hone := h.one rfl
  refine h.after_oneshot (computeBlock_writesOnly ..) (computeBlock_writesOnly ..) rfl ?_ ?_
  · simp only [computeBlock_eq, hsched, hlatch]; split <;> simp [hcore]
  · simp only [computeBlock_eq, hsched, hone]; split <;> simp

theorem computePrimitive_writesOnly (y : Block) (s : State) : WritesOnly .oneshot s (computePrimitive y s) :=
  writesOnly_oneshot ..

theorem computePrimitive_view (y : Block → Block → Block) {s s' : State} (h : SameView .oneshot s s') :
    SameView .oneshot (computePrimitive (y s.latch.blk s.latch.key) s) (computePrimitive (y s'.latch.blk s'.latch.key) s') :=
  h.after_oneshot (computePrimitive_writesOnly ..) (computePrimitive_writesOnly ..) rfl
    (by simp [h.core (.inl rfl), h.latch]) (by simp [h.one rfl])

theorem blockPipeline_runBy {compute : State → State} (hwrites : ∀ s, WritesOnly .oneshot s (compute s))
    (hview : ∀ s s', SameView .oneshot s s' → SameView .oneshot (compute s) (compute s')) :
    (blockPipeline compute).RunBy .oneshot where
  receive_writes _ s := .refl _ s
  sent_writes := blockSent_writesOnly
  inner_writes := by
    intro s t h
    obtain ⟨-, rfl⟩ : s.one.ost = .compute ∧ compute s = t := by simpa using h
    exact hwrites s
  receive_view _ _ _ h := h
  sent_view {s s'} h := h.after_oneshot (blockSent_writesOnly _) (blockSent_writesOnly _) rfl
    (by simp [h.core (.inl rfl)])
    ((blockSent_frame _).2 _ (h.one rfl))
  inner_view := by
    intro s s' t h ht
    obtain ⟨hst, rfl⟩ : s.one.ost = .compute ∧ compute s = t := by simpa using ht
    exact ⟨_, if_pos (by rw [h.one rfl, hst]), hview s s' h⟩
  offer_view h := by simp only [blockPipeline_offer, blockOffer, h.one rfl, h.core (.inl rfl)]
  filling_eq _ := rfl
  offer_term := by
    intro s t
    cases hst : s.one.ost <;> simp [blockOffer, workerTerminal, hst]
  inner_alone := by
    intro s t h
    cases hst : s.one.ost <;> simp [blockOffer, hst] at h ⊢
    rfl
  offer_alone _ := rfl
  sent_term := by
    intro s t h
    cases hst : s.one.ost <;> simp [blockSent, workerTerminal, workerDone, hst] at h ⊢
  done_quiet := by
    intro s h
    cases hst : s.one.ost <;> simp [blockOffer, workerDone, hst] at h ⊢
    rfl

theorem keysPipeline_runBy : keysPipeline.RunBy .oneshot where
  receive_writes _ s := .refl _ s
  sent_writes := keysSent_writesOnly
  inner_writes := by
    intro s t h
    obtain ⟨-, rfl⟩ : s.one.ost = .compute ∧ computeKeySched s = t := by simpa [keysPipeline] using h
    exact computeKeySched_writesOnly s
  receive_view _ _ _ h := h
  sent_view {s s'} h := h.after_oneshot (keysSent_writesOnly _) (keysSent_writesOnly _) rfl
    (by simp [h.core (.inl rfl)])
    ((keysSent_frame _).2 _ (h.one rfl) h.sched)
  inner_view := by
    intro s s' t h ht
    obtain ⟨hst, rfl⟩ : s.one.ost = .compute ∧ computeKeySched s = t := by simpa [keysPipeline] using ht
    refine ⟨_, if_pos (by rw [h.one rfl, hst]), ?_⟩
    exact h.after_oneshot (computeKeySched_writesOnly _) (computeKeySched_writesOnly _) rfl
      (by simp [computeKeySched_eq, h.core (.inl rfl)]) (by simp [computeKeySched_eq, h.sched])
  offer_view h := by simp only [keysPipeline, keysOffer, h.one rfl, h.sched]
  filling_eq _ := rfl
  offer_term := by
    intro s t
    cases hst : s.one.ost <;> simp [keysPipeline, keysOffer, workerTerminal, hst]
  inner_alone := by
    intro s t h
    cases hst : s.one.ost <;> simp [keysPipeline, keysOffer, hst] at h ⊢
  offer_alone _ := rfl
  sent_term := by
    intro s t h
    cases hst : s.one.ost <;> simp [keysSent, workerTerminal, workerDone, hst] at h ⊢
  done_quiet := by
    intro s h
    cases hst : s.one.ost <;> simp [keysPipeline, keysOffer, workerDone, hst] at h ⊢

end Sys2Proof.Machine
end

section
/-! The pipelines of the commands as one unit or two joined units, and why the parts of an edge do not get in each other's
way (45_stream_pipeline.md R292, R300). -/

namespace Sys2Proof.Machine

open Sys2Proof.Safety

/-! ### Two units joined by an internal channel pair (R279, R294) -/

namespace Pipeline

/-- The transfer on the internal channel pair: the upstream unit offers and the downstream unit receives. -/
def transfer (up down : Pipeline) (s : State) : Option State :=
  if down.filling s then (up.offer s).map fun x => down.receive x (up.sent s) else none

/-- Two units joined: the input goes to the first, the output comes from the second. -/
def link (up down : Pipeline) : Pipeline where
  filling := up.filling
  receive := up.receive
  offer := down.offer
  sent := down.sent
  inner s := (up.inner s).or ((down.inner s).or (up.transfer down s))
  inBounds s := up.inBounds s && down.inBounds s

end Pipeline

theorem padEnginePipeline_eq_link (step : BlockStep) :
    padEnginePipeline step = padPipeline.link (enginePipeline step) := by
  simp [padEnginePipeline, Pipeline.link, Pipeline.transfer, padPipeline, enginePipeline, linkA]

theorem engineUnpadPipeline_eq_link (step : BlockStep) :
    engineUnpadPipeline step = (enginePipeline step).link unpadPipeline := by
  simp [engineUnpadPipeline, Pipeline.link, Pipeline.transfer, unpadPipeline, enginePipeline, linkB]

/-! ### The units of a command -/

/-- The mode in which a command runs ENGINE, if it does. -/
def modeOf : Instr → ChainMode
  | .ecbDec _ | .ecbDecUnpad _ => .ecbDec
  | .cbcEnc _ | .cbcEncPad _ => .cbcEnc
  | .cbcDec _ | .cbcDecUnpad _ => .cbcDec
  | .subBytes | .invSubBytes | .shiftRows | .invShiftRows | .mixColumns | .invMixColumns | .addRoundKey | .keySched _
  | .blockEnc _ | .blockDec _ | .pad | .unpad | .ecbEnc _ | .ecbEncPad _ => .ecbEnc

/-- A worker of a command as a unit of its own. -/
def unitOf (i : Instr) : Worker → Pipeline
  | .oneshot => pipelineOf i
  | .pad => padPipeline
  | .engine => enginePipeline (modeStep (modeOf i))
  | .unpad => unpadPipeline

theorem pipelineOf_of_single {i : Instr} {w : Worker} (h : workersOf i = [w]) : pipelineOf i = unitOf i w := by
  cases i <;> cases h <;> rfl

theorem pipelineOf_of_pair {i : Instr} {u d : Worker} (h : workersOf i = [u, d]) :
    pipelineOf i = (unitOf i u).link (unitOf i d) := by
  cases i <;> cases h
  case ecbEncPad | cbcEncPad => exact padEnginePipeline_eq_link _
  case ecbDecUnpad | cbcDecUnpad => exact engineUnpadPipeline_eq_link _

theorem pad_apart_engine : Apart .pad .engine := ⟨by decide, by simp [UsesCore]⟩

theorem engine_apart_unpad : Apart .engine .unpad := ⟨by decide, by simp [UsesCore]⟩

/-- A command has one worker, or one of two pairs. -/
theorem workersOf_cases (i : Instr) :
    (∃ w, workersOf i = [w]) ∨ workersOf i = [.pad, .engine] ∨ workersOf i = [.engine, .unpad] := by
  cases i <;> simp [workersOf]

theorem unitOf_runBy {i : Instr} {w : Worker} (hw : w ∈ workersOf i) : (unitOf i w).RunBy w := by
  cases w with
  | pad => exact padPipeline_runBy
  | engine => exact enginePipeline_runBy _
  | unpad => exact unpadPipeline_runBy
  | oneshot =>
    cases i with
    | subBytes | invSubBytes | shiftRows | invShiftRows | mixColumns | invMixColumns | addRoundKey =>
      exact blockPipeline_runBy (fun s => computePrimitive_writesOnly ..) fun _ _ => computePrimitive_view fun x k => _
    | blockEnc | blockDec => exact blockPipeline_runBy (computeBlock_writesOnly _) fun _ _ => computeBlock_view _
    | keySched => exact keysPipeline_runBy
    | ecbEnc | ecbDec | cbcEnc | cbcDec | ecbEncPad | ecbDecUnpad | cbcEncPad | cbcDecUnpad | pad | unpad =>
      simp [workersOf] at hw

/-! ### The parts of an edge (R300) -/

/-- The parts of an edge do not get in each other's way: at most two are enabled at once, and of two that are, each stays
enabled after the other and they may be taken in either order. -/
structure Pipeline.Separate (p : Pipeline) : Prop where
  not_three : ∀ {s t}, p.inner s = some t → p.filling s = true → p.offer s = none
  inner_input : ∀ {s t}, p.inner s = some t → p.filling s = true →
    p.filling t = true ∧ ∀ x, p.inner (hostSent x (p.receive x s)) = some (hostSent x (p.receive x t))
  inner_output : ∀ {s t y}, p.inner s = some t → p.offer s = some y →
    p.offer t = some y ∧ p.inner (hostTook y (p.sent s)) = some (hostTook y (p.sent t))
  input_output : ∀ {s y}, p.filling s = true → p.offer s = some y → ∀ x,
    p.offer (hostSent x (p.receive x s)) = some y ∧
      hostTook y (p.sent (hostSent x (p.receive x s))) = hostSent x (p.receive x (hostTook y (p.sent s)))

namespace Pipeline.RunBy
variable {p : Pipeline} {w : Worker} (hp : p.RunBy w)
include hp

theorem separate : p.Separate where
  not_three hi _ := (hp.inner_alone hi).2
  inner_input hi hf := by simp [(hp.inner_alone hi).1] at hf
  inner_output hi ho := by simp [(hp.inner_alone hi).2] at ho
  input_output hf ho := by simp [hp.offer_alone ho] at hf

theorem filling_view {s s' : State} (h : SameView w s s') : p.filling s' = p.filling s := by
  rw [hp.filling_eq, hp.filling_eq, h.workerFilling_eq]

theorem inner_view_none {s s' : State} (h : SameView w s s') (hn : p.inner s = none) : p.inner s' = none := by
  by_contra hsome
  obtain ⟨t, ht⟩ := Option.ne_none_iff_exists'.mp hsome
  obtain ⟨t', ht', -⟩ := hp.inner_view h.symm ht
  simp [hn] at ht'

/-! #### A unit and the host -/

theorem receive_withHost (x : Item) (top : Top) (env : Env) (edges : Nat) (s : State) :
    p.receive x (withHost top env edges s) = withHost top env edges (p.receive x s) :=
  (hp.receive_writes x s).withHost_eq (hp.receive_writes x _) (hp.receive_view x (sameView_withHost ..))

theorem sent_withHost (top : Top) (env : Env) (edges : Nat) (s : State) :
    p.sent (withHost top env edges s) = withHost top env edges (p.sent s) :=
  (hp.sent_writes s).withHost_eq (hp.sent_writes _) (hp.sent_view (sameView_withHost ..))

theorem inner_withHost (top : Top) (env : Env) (edges : Nat) (s : State) :
    p.inner (withHost top env edges s) = (p.inner s).map (withHost top env edges) := by
  cases h : p.inner s with
  | none => exact hp.inner_view_none (sameView_withHost ..) h
  | some t =>
    obtain ⟨t', ht', hview⟩ := hp.inner_view (sameView_withHost w top env edges s) h
    rw [ht', (hp.inner_writes h).withHost_eq (hp.inner_writes ht') hview]
    rfl

theorem sent_hostSent (x : Item) (s : State) : p.sent (hostSent x s) = hostSent x (p.sent s) := by
  have hw := hp.sent_writes s
  rw [hostSent_eq_withHost, hostSent_eq_withHost, hp.sent_withHost, hw.top, hw.env, hw.edges]

theorem receive_hostTook (x y : Item) (s : State) : p.receive x (hostTook y s) = hostTook y (p.receive x s) := by
  have hw := hp.receive_writes x s
  rw [hostTook_eq_withHost, hostTook_eq_withHost, hp.receive_withHost, hw.top, hw.env, hw.edges]

theorem inner_hostSent (x : Item) {s t : State} (h : p.inner s = some t) :
    p.inner (hostSent x s) = some (hostSent x t) := by
  have hw := hp.inner_writes h
  rw [hostSent_eq_withHost, hostSent_eq_withHost, hp.inner_withHost, h, hw.top, hw.env, hw.edges]
  rfl

theorem inner_hostTook (y : Item) {s t : State} (h : p.inner s = some t) :
    p.inner (hostTook y s) = some (hostTook y t) := by
  have hw := hp.inner_writes h
  rw [hostTook_eq_withHost, hostTook_eq_withHost, hp.inner_withHost, h, hw.top, hw.env, hw.edges]
  rfl

end Pipeline.RunBy

theorem hostTook_hostSent (x y : Item) (s : State) : hostTook y (hostSent x s) = hostSent x (hostTook y s) := by
  cases y <;> rfl

/-! #### Two units that are apart -/

/-- The three ways in which the inside of two joined units moves, and what else can then happen. -/
theorem link_inner_cases {up down : Pipeline} {s t : State} (h : (up.link down).inner s = some t) :
    up.inner s = some t ∨ (up.inner s = none ∧ down.inner s = some t) ∨
      ∃ x, up.offer s = some x ∧ down.filling s = true ∧ t = down.receive x (up.sent s) := by
  obtain h | ⟨hup, h⟩ := Option.or_eq_some_iff.mp h
  · exact .inl h
  obtain h | ⟨-, h⟩ := Option.or_eq_some_iff.mp h
  · exact .inr (.inl ⟨hup, h⟩)
  · simp only [Pipeline.transfer, Option.ite_none_right_eq_some, Option.map_eq_some_iff] at h
    obtain ⟨hfill, x, hx, rfl⟩ := h
    exact .inr (.inr ⟨x, hx, hfill, rfl⟩)

section Link
variable {up down : Pipeline} {u d : Worker} (hup : up.RunBy u) (hdown : down.RunBy d) (hapart : Apart u d)
include hup hdown hapart

theorem receive_sent_comm (x : Item) (s : State) : down.sent (up.receive x s) = up.receive x (down.sent s) := by
  have hu := hup.receive_writes x s
  have hd := hdown.sent_writes s
  exact hu.diamond hapart hd (hdown.sent_writes _) (hup.receive_writes x _) (hup.receive_view x (hd.sameView hapart.symm))
    (hdown.sent_view (hu.sameView hapart))

/-- The downstream unit sends while the upstream one takes an internal step. -/
theorem inner_sent_comm {s t : State} (ht : up.inner s = some t) : up.inner (down.sent s) = some (down.sent t) := by
  have hu := hup.inner_writes ht
  have hd := hdown.sent_writes s
  obtain ⟨t', ht', hview⟩ := hup.inner_view (hd.sameView hapart.symm) ht
  rw [ht', hu.diamond hapart hd (hdown.sent_writes _) (hup.inner_writes ht') hview (hdown.sent_view (hu.sameView hapart))]

/-- The upstream unit receives while the downstream one takes an internal step. -/
theorem inner_receive_comm (x : Item) {s t : State} (ht : down.inner s = some t) :
    down.inner (up.receive x s) = some (up.receive x t) := by
  have hd := hdown.inner_writes ht
  have hu := hup.receive_writes x s
  obtain ⟨t', ht', hview⟩ := hdown.inner_view (hu.sameView hapart) ht
  rw [ht', hd.diamond hapart.symm hu (hup.receive_writes x _) (hdown.inner_writes ht') hview
    (hup.receive_view x (hd.sameView hapart.symm))]

theorem link_separate (hquiet : (∀ s, up.inner s = none) ∨ ∀ s, down.inner s = none) : (up.link down).Separate where
  not_three := by
    intro s t h hfill
    obtain h | ⟨-, h⟩ | ⟨x, hx, -, -⟩ := link_inner_cases h
    · exact absurd hfill (by simp [Pipeline.link, (hup.inner_alone h).1])
    · exact (hdown.inner_alone h).2
    · exact absurd hfill (by simp [Pipeline.link, hup.offer_alone hx])
  inner_input := by
    intro s t h hfill
    obtain h | ⟨-, h⟩ | ⟨x, hx, -, -⟩ := link_inner_cases h
    · exact absurd hfill (by simp [Pipeline.link, (hup.inner_alone h).1])
    · have hnone : ∀ s, up.inner s = none := hquiet.resolve_right fun hn => by simp [hn s] at h
      refine ⟨(hup.filling_view ((hdown.inner_writes h).sameView hapart.symm)).trans hfill, fun x => ?_⟩
      have hinner := hdown.inner_hostSent x (inner_receive_comm hup hdown hapart x h)
      simp only [Pipeline.link, hnone, hinner, Option.none_or, Option.some_or]
    · exact absurd hfill (by simp [Pipeline.link, hup.offer_alone hx])
  inner_output := by
    intro s t y h ho
    obtain h | ⟨-, h⟩ | ⟨x, -, hfill, -⟩ := link_inner_cases h
    · refine ⟨(hdown.offer_view ((hup.inner_writes h).sameView hapart)).trans ho, ?_⟩
      have hinner := hup.inner_hostTook y (inner_sent_comm hup hdown hapart h)
      simp only [Pipeline.link, hinner, Option.some_or]
    · exact absurd ho (by simp [Pipeline.link, (hdown.inner_alone h).2])
    · exact absurd hfill (by simp [hdown.offer_alone ho])
  input_output := by
    intro s y hfill ho x
    refine ⟨(hdown.offer_view (((hup.receive_writes x s).sameView hapart).trans (sameView_hostSent ..))).trans ho, ?_⟩
    calc hostTook y (down.sent (hostSent x (up.receive x s)))
      _ = hostTook y (hostSent x (up.receive x (down.sent s))) := by
        rw [hdown.sent_hostSent, receive_sent_comm hup hdown hapart]
      _ = hostSent x (up.receive x (hostTook y (down.sent s))) := by rw [hostTook_hostSent, hup.receive_hostTook]

end Link

theorem pipelineOf_separate (i : Instr) : (pipelineOf i).Separate := by
  have hrun : ∀ w ∈ workersOf i, (unitOf i w).RunBy w := fun w => unitOf_runBy
  obtain ⟨w, h⟩ | h | h := workersOf_cases i
  · rw [pipelineOf_of_single h]
    exact (hrun w (by simp [h])).separate
  · rw [pipelineOf_of_pair h]
    exact link_separate (hrun _ (by simp [h])) (hrun _ (by simp [h])) pad_apart_engine (.inl fun _ => rfl)
  · rw [pipelineOf_of_pair h]
    exact link_separate (hrun _ (by simp [h])) (hrun _ (by simp [h])) engine_apart_unpad (.inr fun _ => rfl)

/-! ### The order of the parts -/

section Order
variable {p : Pipeline} {s t : State} {x y : Item}

theorem inner_of_innerAt (h : p.innerAt s = some t) : p.inner s = some t := by
  simp only [Pipeline.innerAt, Option.ite_none_right_eq_some] at h
  exact h.2

theorem filling_of_inputAt (h : p.inputAt s = some x) : p.filling s = true ∧ arrivingItem s = some x := by
  simpa [Pipeline.inputAt] using h

theorem offer_of_outputAt (h : p.outputAt s = some y) : p.offer s = some y := by
  unfold Pipeline.outputAt at h
  split at h
  · cases h
  all_goals
    obtain ⟨-, rfl⟩ := Option.ite_none_right_eq_some.mp h |>.imp_right Option.some.inj
    assumption

theorem applyPart_inner_of_none (h : p.innerAt s = none) (z : State) : applyPart p s z .inner = z := by
  simp [applyPart, h]

theorem applyPart_input_of_none (h : p.inputAt s = none) (z : State) : applyPart p s z .input = z := by
  simp [applyPart, h]

theorem applyPart_output_of_none (h : p.outputAt s = none) (z : State) : applyPart p s z .output = z := by
  simp [applyPart, h]

theorem applyPart_inner_of_some (h : p.innerAt s = some t) (z : State) :
    applyPart p s z .inner = (p.inner z).getD z := by
  simp [applyPart, h]

theorem applyPart_input_of_some (h : p.inputAt s = some x) (z : State) :
    applyPart p s z .input = hostSent x (p.receive x z) := by
  simp [applyPart, h]

theorem applyPart_output_of_some (h : p.outputAt s = some y) (z : State) :
    applyPart p s z .output = hostTook y (p.sent z) := by
  simp [applyPart, h]

/-- An edge is its three parts, one after another. -/
theorem edge_eq_applyPart (p : Pipeline) (s : State) :
    p.edge s = applyPart p s (applyPart p s (applyPart p s s .inner) .input) .output := by
  have hinner : applyPart p s s .inner = (p.innerAt s).getD s := by
    cases h : p.innerAt s with
    | none => exact applyPart_inner_of_none h s
    | some t => rw [applyPart_inner_of_some h, inner_of_innerAt h]
  rw [hinner]
  cases hy : p.outputAt s with
  | none => rw [applyPart_output_of_none hy, Pipeline.edge_of_outputAt_none hy]; rfl
  | some y => rw [applyPart_output_of_some hy, Pipeline.edge_of_outputAt_some hy]; rfl

variable (hp : p.Separate)
include hp

theorem applyPart_inner_input_comm :
    applyPart p s (applyPart p s s .inner) .input = applyPart p s (applyPart p s s .input) .inner := by
  cases hi : p.innerAt s with
  | none => simp only [applyPart_inner_of_none hi]
  | some t =>
    cases hx : p.inputAt s with
    | none => simp only [applyPart_input_of_none hx]
    | some x =>
      have hinner := inner_of_innerAt hi
      obtain ⟨-, hcomm⟩ := hp.inner_input hinner (filling_of_inputAt hx).1
      simp only [applyPart_inner_of_some hi, applyPart_input_of_some hx, hinner, hcomm, Option.getD_some]

theorem applyPart_inner_output_comm :
    applyPart p s (applyPart p s s .inner) .output = applyPart p s (applyPart p s s .output) .inner := by
  cases hi : p.innerAt s with
  | none => simp only [applyPart_inner_of_none hi]
  | some t =>
    cases hy : p.outputAt s with
    | none => simp only [applyPart_output_of_none hy]
    | some y =>
      have hinner := inner_of_innerAt hi
      obtain ⟨-, hcomm⟩ := hp.inner_output hinner (offer_of_outputAt hy)
      simp only [applyPart_inner_of_some hi, applyPart_output_of_some hy, hinner, hcomm, Option.getD_some]

theorem applyPart_input_output_comm :
    applyPart p s (applyPart p s s .input) .output = applyPart p s (applyPart p s s .output) .input := by
  cases hx : p.inputAt s with
  | none => simp only [applyPart_input_of_none hx]
  | some x =>
    cases hy : p.outputAt s with
    | none => simp only [applyPart_output_of_none hy]
    | some y =>
      obtain ⟨-, hcomm⟩ := hp.input_output (filling_of_inputAt hx).1 (offer_of_outputAt hy) x
      simp only [applyPart_input_of_some hx, applyPart_output_of_some hy, hcomm]

/-- One of the three parts does not fall on the edge. -/
theorem one_part_idle (s : State) : p.innerAt s = none ∨ p.inputAt s = none ∨ p.outputAt s = none := by
  cases hi : p.innerAt s with
  | none => exact .inl rfl
  | some t =>
    cases hx : p.inputAt s with
    | none => exact .inr (.inl rfl)
    | some x =>
      cases hy : p.outputAt s with
      | none => exact .inr (.inr rfl)
      | some y =>
        have hnone := hp.not_three (inner_of_innerAt hi) (filling_of_inputAt hx).1
        rw [offer_of_outputAt hy] at hnone
        cases hnone

/-- With one of the three parts idle, the order is the order of the other two. -/
theorem foldl_applyPart_of_perm {order : List EdgePart} (horder : order.Perm [.inner, .input, .output]) (s : State) :
    order.foldl (applyPart p s) s = p.edge s := by
  have hsix : order ∈ List.permutations' [EdgePart.inner, .input, .output] := List.mem_permutations'.mpr horder
  have hinput := applyPart_inner_input_comm (s := s) hp
  have houtput := applyPart_inner_output_comm (s := s) hp
  have hends := applyPart_input_output_comm (s := s) hp
  have hperms : List.permutations' [EdgePart.inner, .input, .output] =
      [[.inner, .input, .output], [.input, .inner, .output], [.input, .output, .inner], [.inner, .output, .input],
       [.output, .inner, .input], [.output, .input, .inner]] := by decide
  rw [edge_eq_applyPart]
  simp only [hperms, List.mem_cons, List.not_mem_nil, or_false] at hsix
  obtain h | h | h := one_part_idle hp s
  · obtain rfl | rfl | rfl | rfl | rfl | rfl := hsix <;>
      simp only [List.foldl_cons, List.foldl_nil, applyPart_inner_of_none h, hends]
  · obtain rfl | rfl | rfl | rfl | rfl | rfl := hsix <;>
      simp only [List.foldl_cons, List.foldl_nil, applyPart_input_of_none h, houtput]
  · obtain rfl | rfl | rfl | rfl | rfl | rfl := hsix <;>
      simp only [List.foldl_cons, List.foldl_nil, applyPart_output_of_none h, hinput]

end Order

/-- Settles O41: at most two parts fall on one edge, and those are of workers that are apart. -/
theorem stepsOfOneEdgeCommute : Obligations.StepsOfOneEdgeCommute := by
  unfold Obligations.StepsOfOneEdgeCommute
  intro i s order hrun hbounds horder
  rw [exec_run hrun, if_pos hbounds, foldl_applyPart_of_perm (pipelineOf_separate i) horder]

/-! ### An edge as steps of the core (R300) -/

/-- One step of R300 of the running command `i`: an internal step of a worker, the internal transfer, or a transfer on
`CH_IN` or `CH_OUT`. -/
inductive CoreStep (i : Instr) (s : State) : State → Prop
  | inner {w : Worker} {t : State} (hw : w ∈ workersOf i) (ht : (unitOf i w).inner s = some t) : CoreStep i s t
  | transfer {u d : Worker} {x : Item} (hw : workersOf i = [u, d]) (hoffer : (unitOf i u).offer s = some x)
      (hfill : (unitOf i d).filling s = true) : CoreStep i s ((unitOf i d).receive x ((unitOf i u).sent s))
  | input {w : Worker} {x : Item} (hw : (workersOf i).head? = some w) (hfill : (unitOf i w).filling s = true)
      (hx : arrivingItem s = some x) : CoreStep i s (hostSent x ((unitOf i w).receive x s))
  | output {w : Worker} {x : Item} (hw : (workersOf i).getLast? = some w) (hoffer : (unitOf i w).offer s = some x) :
      CoreStep i s (hostTook x ((unitOf i w).sent s))

section Steps
variable {i : Instr} {s : State}

theorem coreStep_of_inner {t : State} (h : (pipelineOf i).inner s = some t) : CoreStep i s t := by
  have hpair : ∀ u d, workersOf i = [u, d] → CoreStep i s t := by
    intro u d hw
    rw [pipelineOf_of_pair hw] at h
    obtain h | ⟨-, h⟩ | ⟨x, hx, hfill, rfl⟩ := link_inner_cases h
    · exact .inner (by simp [hw]) h
    · exact .inner (by simp [hw]) h
    · exact .transfer hw hx hfill
  obtain ⟨w, hw⟩ | hw | hw := workersOf_cases i
  · rw [pipelineOf_of_single hw] at h
    exact .inner (by simp [hw]) h
  · exact hpair _ _ hw
  · exact hpair _ _ hw

/-- The first worker is the one that receives from the host. -/
theorem pipelineOf_first (i : Instr) : ∃ w, (workersOf i).head? = some w ∧ (pipelineOf i).filling = (unitOf i w).filling ∧
    (pipelineOf i).receive = (unitOf i w).receive := by
  obtain ⟨w, hw⟩ | hw | hw := workersOf_cases i
  · exact ⟨w, by simp [hw], by simp [pipelineOf_of_single hw]⟩
  · exact ⟨_, by rw [hw]; rfl, by simp [pipelineOf_of_pair hw, Pipeline.link]⟩
  · exact ⟨_, by rw [hw]; rfl, by simp [pipelineOf_of_pair hw, Pipeline.link]⟩

/-- The last worker is the one that sends to the host. -/
theorem pipelineOf_last (i : Instr) : ∃ w, (workersOf i).getLast? = some w ∧ (pipelineOf i).offer = (unitOf i w).offer ∧
    (pipelineOf i).sent = (unitOf i w).sent := by
  obtain ⟨w, hw⟩ | hw | hw := workersOf_cases i
  · exact ⟨w, by simp [hw], by simp [pipelineOf_of_single hw]⟩
  · exact ⟨_, by rw [hw]; rfl, by simp [pipelineOf_of_pair hw, Pipeline.link]⟩
  · exact ⟨_, by rw [hw]; rfl, by simp [pipelineOf_of_pair hw, Pipeline.link]⟩

theorem coreStep_of_input {x : Item} (hfill : (pipelineOf i).filling s = true) (hx : arrivingItem s = some x) :
    CoreStep i s (hostSent x ((pipelineOf i).receive x s)) := by
  obtain ⟨w, hw, hf, hr⟩ := pipelineOf_first i
  rw [hf] at hfill
  rw [hr]
  exact .input hw hfill hx

theorem coreStep_of_output {x : Item} (hoffer : (pipelineOf i).offer s = some x) :
    CoreStep i s (hostTook x ((pipelineOf i).sent s)) := by
  obtain ⟨w, hw, ho, hs⟩ := pipelineOf_last i
  rw [ho] at hoffer
  rw [hs]
  exact .output hw hoffer

open Relation in
/-- An edge on which no part falls changes nothing; any other is a sequence of steps of the core. -/
theorem edge_coreSteps (i : Instr) (s : State) :
    ((pipelineOf i).innerAt s = none ∧ (pipelineOf i).inputAt s = none ∧ (pipelineOf i).outputAt s = none ∧
      (pipelineOf i).edge s = s) ∨ TransGen (CoreStep i) s ((pipelineOf i).edge s) := by
  have hp := pipelineOf_separate i
  have hw := pipelineOf_writesWorkersOnly i
  rw [edge_eq_applyPart]
  cases hi : (pipelineOf i).innerAt s with
  | none =>
    rw [applyPart_inner_of_none hi]
    cases hx : (pipelineOf i).inputAt s with
    | none =>
      rw [applyPart_input_of_none hx]
      cases hy : (pipelineOf i).outputAt s with
      | none => exact .inl ⟨rfl, rfl, rfl, applyPart_output_of_none hy s⟩
      | some y =>
        rw [applyPart_output_of_some hy]
        exact .inr (.single (coreStep_of_output (offer_of_outputAt hy)))
    | some x =>
      right
      obtain ⟨hfill, harr⟩ := filling_of_inputAt hx
      have hstep : CoreStep i s (hostSent x ((pipelineOf i).receive x s)) := coreStep_of_input hfill harr
      rw [applyPart_input_of_some hx]
      cases hy : (pipelineOf i).outputAt s with
      | none => rw [applyPart_output_of_none hy]; exact .single hstep
      | some y =>
        rw [applyPart_output_of_some hy]
        exact .tail (.single hstep) (coreStep_of_output (hp.input_output hfill (offer_of_outputAt hy) x).1)
  | some t =>
    right
    have hinner := inner_of_innerAt hi
    rw [applyPart_inner_of_some hi, hinner, Option.getD_some]
    cases hx : (pipelineOf i).inputAt s with
    | none =>
      rw [applyPart_input_of_none hx]
      cases hy : (pipelineOf i).outputAt s with
      | none => rw [applyPart_output_of_none hy]; exact .single (coreStep_of_inner hinner)
      | some y =>
        rw [applyPart_output_of_some hy]
        exact .tail (.single (coreStep_of_inner hinner))
          (coreStep_of_output (hp.inner_output hinner (offer_of_outputAt hy)).1)
    | some x =>
      obtain ⟨hfill, harr⟩ := filling_of_inputAt hx
      have hy : (pipelineOf i).outputAt s = none := by simpa [hi, hx] using one_part_idle hp s
      rw [applyPart_input_of_some hx, applyPart_output_of_none hy]
      have harr' : arrivingItem t = some x := (arrivingItem_congr (hw.inner _ _ hinner).env_eq).trans harr
      exact .tail (.single (coreStep_of_inner hinner)) (coreStep_of_input (hp.inner_input hinner hfill).1 harr')

end Steps

end Sys2Proof.Machine
end

section
/-! The control tables of ENGINE, PAD and UNPAD, edge by edge, alone and on the internal channel pairs (43_chaining.md R233,
44_padding.md R262, R270, R279). -/

namespace Sys2Proof.Machine

open Sys2Proof.Safety

/-! ### Edges of a pipeline that does one thing -/

namespace Pipeline
variable {p : Pipeline} {s : State}

theorem edge_of_input (hinner : p.inner s = none) (hoffer : p.offer s = none) (hfill : p.filling s = true) :
    p.edge s = match arrivingItem s with
      | some x => hostSent x (p.receive x s)
      | none => s := by
  cases hx : arrivingItem s <;> simp [edge, innerAt, inputAt, outputAt, hinner, hoffer, hfill, hx]

theorem edge_of_quiet (hinner : p.inner s = none) (hin : p.inputAt s = none) (hoffer : p.offer s = none) :
    p.edge s = s := by
  simp [edge, innerAt, outputAt, hinner, hin, hoffer]

end Pipeline

theorem exec_edge {i : Instr} {s : State} (hrun : s.top = .run) (hbounds : (pipelineOf i).inBounds s = true) :
    exec i s = .next ((pipelineOf i).edge s) := by
  rw [exec_run hrun, if_pos hbounds]

/-! ### ENGINE, action by action (R233) -/

section Engine
variable {s : State}

/-- The sixteenth byte leads to `E_XFORM`. -/
theorem engineReceive_data (hst : s.eng.est = .fill) (b : Byte) :
    engineReceive (.data b) s = { s with
      eng.ibuf := s.eng.ibuf.setIfInBounds s.eng.icnt.toNat b, eng.icnt := s.eng.icnt + 1,
      eng.est := if s.eng.icnt = 15 then .xform else .fill } := by
  have hlast : s.eng.icnt + 1 = 16 ↔ s.eng.icnt = 15 := by bv_omega
  simp only [engineReceive, hlast, writeAt]
  split <;> simp [← hst]

theorem engineReceive_eos (s : State) :
    engineReceive (.term .eos) s =
      { s with eng.est := if s.eng.icnt = 0 then .term .eos else .term (.fail .lce) } := by
  simp only [engineReceive]; split <;> rfl

theorem engineReceive_fail (e : Err) (s : State) :
    engineReceive (.term (.fail e)) s = { s with eng.est := .term (.fail e) } := rfl

/-- The sixteenth byte is followed by the next fill. -/
theorem engineSent_of_drain (hst : s.eng.est = .drain) :
    engineSent s = { s with eng.ocnt := s.eng.ocnt + 1, eng.est := if s.eng.ocnt = 15 then .fill else .drain } := by
  have hlast : s.eng.ocnt + 1 = 16 ↔ s.eng.ocnt = 15 := by bv_omega
  simp only [engineSent, hst, hlast]
  split <;> simp [← hst]

theorem engineSent_of_term {t : Terminal} (hst : s.eng.est = .term t) : engineSent s = { s with eng.est := .done } := by
  simp only [engineSent, hst]

theorem engineOffer_of_drain (hst : s.eng.est = .drain) :
    engineOffer s = some (.data (readAt s.eng.obuf s.eng.ocnt.toNat)) := by
  simp only [engineOffer, hst]

theorem engineOffer_of_term {t : Terminal} (hst : s.eng.est = .term t) : engineOffer s = some (.term t) := by
  simp only [engineOffer, hst]

variable (step : BlockStep)

theorem enginePipeline_edge_of_fill (hst : s.eng.est = .fill) :
    (enginePipeline step).edge s = match arrivingItem s with
      | some x => hostSent x (engineReceive x s)
      | none => s :=
  Pipeline.edge_of_input (by simp [enginePipeline, engineInner, hst]) (by simp [enginePipeline, engineOffer, hst])
    (by simp [enginePipeline, hst])

theorem enginePipeline_edge_of_drain (hst : s.eng.est = .drain) :
    (enginePipeline step).edge s = if (inPorts s).outReady = true then
        hostTook (.data (readAt s.eng.obuf s.eng.ocnt.toNat)) (engineSent s) else s :=
  Pipeline.edge_of_data (by simp [Pipeline.inputAt, enginePipeline, hst]) (by simp [enginePipeline, engineInner, hst])
    (engineOffer_of_drain hst)

theorem enginePipeline_edge_of_term {t : Terminal} (hst : s.eng.est = .term t) :
    (enginePipeline step).edge s = if (inPorts s).outTermReady = true then hostTook (.term t) (engineSent s) else s :=
  Pipeline.edge_of_terminal (by simp [Pipeline.inputAt, enginePipeline, hst])
    (by simp [enginePipeline, engineInner, hst]) (engineOffer_of_term hst)

theorem enginePipeline_edge_of_done (hst : s.eng.est = .done) : (enginePipeline step).edge s = s :=
  Pipeline.edge_of_quiet (by simp [enginePipeline, engineInner, hst]) (by simp [Pipeline.inputAt, enginePipeline, hst])
    (by simp [enginePipeline, engineOffer, hst])

end Engine

theorem exec_chainCommand (m : ChainMode) (k : KeySize) {s : State} (hrun : s.top = .run)
    (hbounds : engineInBounds s = true) :
    exec (chainCommand m k) s = .next ((enginePipeline (modeStep m)).edge s) := by
  rw [← pipelineOf_chainCommand m k]
  exact exec_edge hrun (by rw [pipelineOf_chainCommand]; exact hbounds)

/-- Settles O25, by the item that arrives. -/
theorem engineGathersSixteenBytes : Obligations.EngineGathersSixteenBytes := by
  unfold Obligations.EngineGathersSixteenBytes
  intro m k s hrun hst hcnt
  rw [exec_chainCommand m k hrun (by simpa [engineInBounds, hst] using hcnt), enginePipeline_edge_of_fill _ hst]
  rcases arrivingItem s with _ | (b | (_ | e))
  · rfl
  · simp only [engineReceive_data hst]
  · simp only [engineReceive_eos]
  · rfl

/-- Settles O27, by the control state. -/
theorem engineDrainsThenFillsAgain : Obligations.EngineDrainsThenFillsAgain := by
  unfold Obligations.EngineDrainsThenFillsAgain
  intro m k s hrun
  refine ⟨fun hst hcnt => ?_, fun t hst => ?_, fun hst => ?_⟩
  · rw [exec_chainCommand m k hrun (by simpa [engineInBounds, hst] using hcnt), enginePipeline_edge_of_drain _ hst,
      engineSent_of_drain hst]
    split <;> rfl
  · rw [exec_chainCommand m k hrun (by simp [engineInBounds, hst]), enginePipeline_edge_of_term _ hst,
      engineSent_of_term hst]
    split <;> rfl
  · rw [exec_chainCommand m k hrun (by simp [engineInBounds, hst]), enginePipeline_edge_of_done _ hst]

/-! ### PAD, action by action (R262) -/

section Pad
variable {s : State}

/-- The last byte of the block leads to `P_FLUSH`. -/
theorem padReceive_data (b : Byte) (s : State) :
    padReceive (.data b) s = { s with pad :=
      if s.pad.pcnt + 1 = s.latch.bsz then
        { s.pad with pbuf := s.pad.pbuf.setIfInBounds s.pad.pcnt.toNat b, pcnt := s.pad.pcnt + 1, pout := 0, pst := .flush }
      else { s.pad with pbuf := s.pad.pbuf.setIfInBounds s.pad.pcnt.toNat b, pcnt := s.pad.pcnt + 1 } } := by
  simp only [padReceive, writeAt]; split <;> rfl

theorem padReceive_eos (s : State) :
    padReceive (.term .eos) s = { s with pad :=
      { pbuf := fillFrom s.pad.pbuf s.pad.pcnt.toNat s.latch.bsz.toNat (s.latch.bsz - s.pad.pcnt), pcnt := s.latch.bsz,
        pout := 0, plast := true, pst := .flush } } := rfl

theorem padReceive_fail (e : Err) (s : State) :
    padReceive (.term (.fail e)) s = { s with pad.pst := .term (.fail e) } := rfl

theorem padSent_of_flush (hst : s.pad.pst = .flush) :
    padSent s = { s with pad :=
      if s.pad.pout + 1 = s.latch.bsz then
        (if s.pad.plast = true then { s.pad with pout := s.pad.pout + 1, pst := .term .eos }
         else { s.pad with pout := s.pad.pout + 1, pcnt := 0, pst := .fill })
      else { s.pad with pout := s.pad.pout + 1 } } := by
  simp only [padSent, hst]
  split
  · split <;> rfl
  · rfl

theorem padSent_of_term {t : Terminal} (hst : s.pad.pst = .term t) : padSent s = { s with pad.pst := .done } := by
  simp only [padSent, hst]

theorem padOffer_of_flush (hst : s.pad.pst = .flush) :
    padOffer s = some (.data (readAt s.pad.pbuf s.pad.pout.toNat)) := by
  simp only [padOffer, hst]

theorem padOffer_of_term {t : Terminal} (hst : s.pad.pst = .term t) : padOffer s = some (.term t) := by
  simp only [padOffer, hst]

theorem padPipeline_edge_of_fill (hst : s.pad.pst = .fill) :
    padPipeline.edge s = match arrivingItem s with
      | some x => hostSent x (padReceive x s)
      | none => s :=
  Pipeline.edge_of_input rfl (by simp [padPipeline, padOffer, hst]) (by simp [padPipeline, hst])

theorem padPipeline_edge_of_flush (hst : s.pad.pst = .flush) :
    padPipeline.edge s = if (inPorts s).outReady = true then
        hostTook (.data (readAt s.pad.pbuf s.pad.pout.toNat)) (padSent s) else s :=
  Pipeline.edge_of_data (by simp [Pipeline.inputAt, padPipeline, hst]) rfl (padOffer_of_flush hst)

theorem padPipeline_edge_of_term {t : Terminal} (hst : s.pad.pst = .term t) :
    padPipeline.edge s = if (inPorts s).outTermReady = true then hostTook (.term t) (padSent s) else s :=
  Pipeline.edge_of_terminal (by simp [Pipeline.inputAt, padPipeline, hst]) rfl (padOffer_of_term hst)

theorem padPipeline_edge_of_done (hst : s.pad.pst = .done) : padPipeline.edge s = s :=
  Pipeline.edge_of_quiet rfl (by simp [Pipeline.inputAt, padPipeline, hst]) (by simp [padPipeline, padOffer, hst])

theorem exec_pad (hrun : s.top = .run) (hbounds : padInBounds s = true) : exec .pad s = .next (padPipeline.edge s) :=
  exec_edge hrun hbounds

end Pad

/-- Settles O28, by the control state and the item that arrives. -/
theorem padFollowsItsControlTable : Obligations.PadFollowsItsControlTable := by
  unfold Obligations.PadFollowsItsControlTable
  intro s hrun
  refine ⟨fun hst hcnt => ?_, fun hst hcnt => ?_, fun t hst => ?_, fun hst => ?_⟩
  · rw [exec_pad hrun (by simpa [padInBounds, hst] using hcnt), padPipeline_edge_of_fill hst]
    rcases arrivingItem s with _ | (b | (_ | e))
    · rfl
    · simp only [padReceive_data]
    · rfl
    · rfl
  · rw [exec_pad hrun (by simpa [padInBounds, hst] using hcnt), padPipeline_edge_of_flush hst, padSent_of_flush hst]
    split <;> rfl
  · rw [exec_pad hrun (by simp [padInBounds, hst]), padPipeline_edge_of_term hst, padSent_of_term hst]
    split <;> rfl
  · rw [exec_pad hrun (by simp [padInBounds, hst]), padPipeline_edge_of_done hst]

/-! ### UNPAD, action by action (R270, R272) -/

section Unpad
variable {s : State}

theorem unpadReceive_data (b : Byte) (s : State) :
    unpadReceive (.data b) s = { s with unp :=
      if s.unp.ucnt < s.latch.bsz then
        { s.unp with ubuf := s.unp.ubuf.setIfInBounds s.unp.ucnt.toNat b, ucnt := s.unp.ucnt + 1 }
      else { s.unp with upend := b, uhave := true, ulim := s.latch.bsz, uout := 0, ust := .flush } } := by
  simp only [unpadReceive, writeAt]; split <;> rfl

theorem unpadReceive_fail (e : Err) (s : State) :
    unpadReceive (.term (.fail e)) s = { s with unp.ust := .term (.fail e) } := rfl

theorem unpadEnd_of_empty (hcnt : s.unp.ucnt = 0) : unpadEnd s = { s with unp.ust := .term (.fail .pae) } := by
  simp only [unpadEnd, hcnt, if_true, raise_eq, toTerminal_unpad]

theorem unpadEnd_of_partial (hcnt : s.unp.ucnt ≠ 0) (hlt : s.unp.ucnt < s.latch.bsz) :
    unpadEnd s = { s with unp.ust := .term (.fail .lce) } := by
  simp only [unpadEnd, if_neg hcnt, if_pos hlt, raise_eq, toTerminal_unpad]

/-- A full block at the end of input, by its padding (R272 point 3). -/
theorem unpadEnd_of_full (hcnt : s.unp.ucnt ≠ 0) (hfull : s.unp.ucnt = s.latch.bsz) :
    unpadEnd s =
      if paddingValid s.unp.ubuf s.latch.bsz (readAt s.unp.ubuf (s.latch.bsz.toNat - 1)) = true then
        { s with unp :=
          { s.unp with ulim := s.latch.bsz - readAt s.unp.ubuf (s.latch.bsz.toNat - 1), ulast := true, uout := 0,
                       ust := if readAt s.unp.ubuf (s.latch.bsz.toNat - 1) = s.latch.bsz then .term .eos else .flush } }
      else { s with unp.ust := .term (.fail .pae) } := by
  have hlt : ¬s.unp.ucnt < s.latch.bsz := by rw [hfull]; exact BitVec.lt_irrefl _
  have hnone : s.latch.bsz - readAt s.unp.ubuf (s.latch.bsz.toNat - 1) = 0 ↔
      readAt s.unp.ubuf (s.latch.bsz.toNat - 1) = s.latch.bsz := by bv_omega
  simp only [unpadEnd, if_neg hcnt, if_neg hlt, hnone]
  split
  · split <;> rfl
  · rfl

/-- `N` is in 1..`BSZ` and the last `N` bytes of the block are all `N`. -/
theorem paddingValid_iff (buf : PadBuffer) (bsz n : Byte) :
    paddingValid buf bsz n = true ↔
      n ≠ 0 ∧ n ≤ bsz ∧ ∀ i, bsz.toNat - n.toNat ≤ i → i < bsz.toNat → readAt buf i = n := by
  simp only [paddingValid, Bool.and_eq_true, bne_iff_ne, ne_eq, decide_eq_true_eq, List.all_eq_true, List.mem_range,
    Bool.or_eq_true, beq_iff_eq, and_assoc]
  refine and_congr_right fun _ => and_congr_right fun _ => forall_congr' fun i => ?_
  rw [← not_lt]
  tauto

theorem unpadSent_of_flush (hst : s.unp.ust = .flush) :
    unpadSent s = { s with unp :=
      if s.unp.uout + 1 = s.unp.ulim then
        (if s.unp.ulast = true then { s.unp with uout := s.unp.uout + 1, ust := .term .eos }
         else { s.unp with uout := s.unp.uout + 1, ubuf := s.unp.ubuf.setIfInBounds 0 s.unp.upend, ucnt := 1,
                           uhave := false, ust := .fill })
      else { s.unp with uout := s.unp.uout + 1 } } := by
  simp only [unpadSent, hst, writeAt]
  split
  · split <;> rfl
  · rfl

theorem unpadSent_of_term {t : Terminal} (hst : s.unp.ust = .term t) : unpadSent s = { s with unp.ust := .done } := by
  simp only [unpadSent, hst]

theorem unpadOffer_of_flush (hst : s.unp.ust = .flush) :
    unpadOffer s = some (.data (readAt s.unp.ubuf s.unp.uout.toNat)) := by
  simp only [unpadOffer, hst]

theorem unpadOffer_of_term {t : Terminal} (hst : s.unp.ust = .term t) : unpadOffer s = some (.term t) := by
  simp only [unpadOffer, hst]

theorem unpadPipeline_edge_of_fill (hst : s.unp.ust = .fill) :
    unpadPipeline.edge s = match arrivingItem s with
      | some x => hostSent x (unpadReceive x s)
      | none => s :=
  Pipeline.edge_of_input rfl (by simp [unpadPipeline, unpadOffer, hst]) (by simp [unpadPipeline, hst])

theorem unpadPipeline_edge_of_flush (hst : s.unp.ust = .flush) :
    unpadPipeline.edge s = if (inPorts s).outReady = true then
        hostTook (.data (readAt s.unp.ubuf s.unp.uout.toNat)) (unpadSent s) else s :=
  Pipeline.edge_of_data (by simp [Pipeline.inputAt, unpadPipeline, hst]) rfl (unpadOffer_of_flush hst)

theorem unpadPipeline_edge_of_term {t : Terminal} (hst : s.unp.ust = .term t) :
    unpadPipeline.edge s = if (inPorts s).outTermReady = true then hostTook (.term t) (unpadSent s) else s :=
  Pipeline.edge_of_terminal (by simp [Pipeline.inputAt, unpadPipeline, hst]) rfl (unpadOffer_of_term hst)

theorem unpadPipeline_edge_of_done (hst : s.unp.ust = .done) : unpadPipeline.edge s = s :=
  Pipeline.edge_of_quiet rfl (by simp [Pipeline.inputAt, unpadPipeline, hst]) (by simp [unpadPipeline, unpadOffer, hst])

theorem exec_unpad (hrun : s.top = .run) (hbounds : unpadInBounds s = true) :
    exec .unpad s = .next (unpadPipeline.edge s) :=
  exec_edge hrun hbounds

theorem exec_unpad_of_item (hrun : s.top = .run) (hst : s.unp.ust = .fill) (hcnt : s.unp.ucnt ≤ s.latch.bsz) {x : Item}
    (hx : arrivingItem s = some x) : exec .unpad s = .next (hostSent x (unpadReceive x s)) := by
  rw [exec_unpad hrun (by simpa [unpadInBounds, hst] using hcnt), unpadPipeline_edge_of_fill hst, hx]

end Unpad

/-- Settles O29, by the control state, the item that arrives and, at the clean end, what UNPAD holds. -/
theorem unpadFollowsItsControlTable : Obligations.UnpadFollowsItsControlTable := by
  unfold Obligations.UnpadFollowsItsControlTable
  intro s hrun
  refine ⟨fun hst hcnt => ⟨fun hx => ?_, fun b hx => ?_, fun e hx => ?_, fun hx => ?_⟩, fun hst hcnt hlim => ?_,
    fun t hst => ?_, fun hst => ?_⟩
  · rw [exec_unpad hrun (by simpa [unpadInBounds, hst] using hcnt), unpadPipeline_edge_of_fill hst, hx]
  · rw [exec_unpad_of_item hrun hst hcnt hx, unpadReceive_data]
  · rw [exec_unpad_of_item hrun hst hcnt hx, unpadReceive_fail]
  · intro n valid
    have hend : exec .unpad s = .next (hostSent (.term .eos) (unpadEnd s)) := exec_unpad_of_item hrun hst hcnt hx
    have hvalid : paddingValid s.unp.ubuf s.latch.bsz n = true ↔ valid := paddingValid_iff _ _ _
    refine ⟨fun hzero => ?_, fun hne hlt => ?_, fun hne hfull hbad => ?_, fun hne hfull hgood => ?_⟩
    · rw [hend, unpadEnd_of_empty hzero]
    · rw [hend, unpadEnd_of_partial hne hlt]
    · rw [hend, unpadEnd_of_full hne hfull, if_neg (mt hvalid.mp hbad)]
    · rw [hend, unpadEnd_of_full hne hfull, if_pos (hvalid.mpr hgood)]
  · rw [exec_unpad hrun (by simp [unpadInBounds, hst, hcnt, hlim]), unpadPipeline_edge_of_flush hst, unpadSent_of_flush hst]
    split <;> rfl
  · rw [exec_unpad hrun (by simp [unpadInBounds, hst]), unpadPipeline_edge_of_term hst, unpadSent_of_term hst]
    split <;> rfl
  · rw [exec_unpad hrun (by simp [unpadInBounds, hst]), unpadPipeline_edge_of_done hst]

/-! ### The padded commands: transfers on the internal channel pairs (R279, R294) -/

theorem pipelineOf_paddedCommand_of_encrypts {m : ChainMode} (k : KeySize) (h : encrypts m = true) :
    pipelineOf (paddedCommand m k) = padPipeline.link (enginePipeline (modeStep m)) := by
  cases m with
  | ecbEnc | cbcEnc => exact padEnginePipeline_eq_link _
  | ecbDec | cbcDec => cases h

theorem pipelineOf_paddedCommand_of_decrypts {m : ChainMode} (k : KeySize) (h : encrypts m = false) :
    pipelineOf (paddedCommand m k) = (enginePipeline (modeStep m)).link unpadPipeline := by
  cases m with
  | ecbEnc | cbcEnc => cases h
  | ecbDec | cbcDec => exact engineUnpadPipeline_eq_link _

/-- The edge on which an item passes from one unit to the other: nothing else falls on it. -/
theorem link_edge_of_transfer {up down : Pipeline} {u d : Worker} (hup : up.RunBy u) (hdown : down.RunBy d) {s : State}
    {x : Item} (hgo : (currentMove s).go = true) (hoffer : up.offer s = some x) (hfill : down.filling s = true) :
    (up.link down).edge s = down.receive x (up.sent s) := by
  have hnoneUp : up.inner s = none := by
    by_contra h
    obtain ⟨t, ht⟩ := Option.ne_none_iff_exists'.mp h
    simp [(hup.inner_alone ht).2] at hoffer
  have hnoneDown : down.inner s = none := by
    by_contra h
    obtain ⟨t, ht⟩ := Option.ne_none_iff_exists'.mp h
    simp [(hdown.inner_alone ht).1] at hfill
  have hquiet : down.offer s = none := by
    by_contra h
    obtain ⟨y, hy⟩ := Option.ne_none_iff_exists'.mp h
    simp [hdown.offer_alone hy] at hfill
  refine Pipeline.edge_of_inner ?_ hquiet hgo ?_
  · simp [Pipeline.inputAt, Pipeline.link, hup.offer_alone hoffer]
  · simp [Pipeline.link, Pipeline.transfer, hnoneUp, hnoneDown, hoffer, hfill]

theorem exec_of_linkA {m : ChainMode} (k : KeySize) {s : State} {x : Item} (hm : encrypts m = true) (hrun : s.top = .run)
    (hgo : (currentMove s).go = true) (hst : s.eng.est = .fill) (hcnt : s.eng.icnt < 16) (hbounds : padInBounds s = true)
    (hoffer : padOffer s = some x) : exec (paddedCommand m k) s = .next (engineReceive x (padSent s)) := by
  have hpipe := pipelineOf_paddedCommand_of_encrypts k hm
  have heng : engineInBounds s = true := by simpa [engineInBounds, hst] using hcnt
  have hin : (pipelineOf (paddedCommand m k)).inBounds s = true := by
    rw [hpipe]; simp [Pipeline.link, padPipeline, enginePipeline, hbounds, heng]
  rw [exec_edge hrun hin, hpipe, link_edge_of_transfer padPipeline_runBy (enginePipeline_runBy m) hgo hoffer
    (by simp [enginePipeline, hst])]
  rfl

theorem exec_of_linkB {m : ChainMode} (k : KeySize) {s : State} {x : Item} (hm : encrypts m = false) (hrun : s.top = .run)
    (hgo : (currentMove s).go = true) (hst : s.unp.ust = .fill) (hcnt : s.unp.ucnt ≤ s.latch.bsz)
    (hbounds : engineInBounds s = true) (hoffer : engineOffer s = some x) :
    exec (paddedCommand m k) s = .next (unpadReceive x (engineSent s)) := by
  have hpipe := pipelineOf_paddedCommand_of_decrypts k hm
  have hunp : unpadInBounds s = true := by simpa [unpadInBounds, hst] using hcnt
  have hin : (pipelineOf (paddedCommand m k)).inBounds s = true := by
    rw [hpipe]; simp [Pipeline.link, unpadPipeline, enginePipeline, hbounds, hunp]
  rw [exec_edge hrun hin, hpipe, link_edge_of_transfer (enginePipeline_runBy m) unpadPipeline_runBy hgo hoffer
    (by simp [unpadPipeline, hst])]
  rfl

/-- Settles O30, by what PAD offers. -/
theorem padHandsItsItemsToTheEngine : Obligations.PadHandsItsItemsToTheEngine := by
  unfold Obligations.PadHandsItsItemsToTheEngine
  intro m k s hm hrun hgo hst hcnt
  refine ⟨fun hpad hout => ?_, fun hpad => ?_, fun e hpad => ?_⟩
  · rw [exec_of_linkA k hm hrun hgo hst hcnt (by simpa [padInBounds, hpad] using hout) (padOffer_of_flush hpad),
      padSent_of_flush hpad, engineReceive_data (by exact hst)]
  · rw [exec_of_linkA k hm hrun hgo hst hcnt (by simp [padInBounds, hpad]) (padOffer_of_term hpad),
      padSent_of_term hpad, engineReceive_eos]
  · rw [exec_of_linkA k hm hrun hgo hst hcnt (by simp [padInBounds, hpad]) (padOffer_of_term hpad),
      padSent_of_term hpad, engineReceive_fail]

/-- UNPAD at the end of input does not look at ENGINE. -/
theorem unpadEnd_withEngine (s : State) (r : EngineRegs) : unpadEnd { s with eng := r } = { unpadEnd s with eng := r } := by
  obtain ⟨hwrites, hreads⟩ := unpadEnd_frame s
  rw [(unpadEnd_frame { s with eng := r }).1, hreads { s with eng := r } rfl rfl, hwrites]

/-- Settles O31, by what ENGINE offers. -/
theorem engineHandsItsItemsToUnpad : Obligations.EngineHandsItsItemsToUnpad := by
  unfold Obligations.EngineHandsItsItemsToUnpad
  intro m k s hm hrun hgo hst hcnt
  refine ⟨fun heng hout => ?_, fun heng => ?_, fun e heng => ?_⟩
  · rw [exec_of_linkB k hm hrun hgo hst hcnt (by simpa [engineInBounds, heng] using hout) (engineOffer_of_drain heng),
      engineSent_of_drain heng, unpadReceive_data]
  · rw [exec_of_linkB k hm hrun hgo hst hcnt (by simp [engineInBounds, heng]) (engineOffer_of_term heng),
      engineSent_of_term heng, unpadReceive, unpadEnd_withEngine, (unpadEnd_frame s).1]
  · rw [exec_of_linkB k hm hrun hgo hst hcnt (by simp [engineInBounds, heng]) (engineOffer_of_term heng),
      engineSent_of_term heng, unpadReceive_fail]

/-! ### The padded commands: edges on which one unit acts (R279) -/

/-- Two pipelines with the same parts falling on an edge take it alike. -/
theorem Pipeline.edge_congr {p q : Pipeline} {s : State} (hinner : p.inner s = q.inner s)
    (hin : p.inputAt s = q.inputAt s) (hrecv : p.inputAt s = none ∨ p.receive = q.receive)
    (hoffer : p.offer s = q.offer s) (hsent : p.offer s = none ∨ p.sent = q.sent) : p.edge s = q.edge s := by
  have hout : p.outputAt s = q.outputAt s := by simp only [Pipeline.outputAt, hoffer]
  have hiAt : p.innerAt s = q.innerAt s := by simp only [Pipeline.innerAt, hinner]
  have hbefore : p.beforeOutput s = q.beforeOutput s := by
    unfold Pipeline.beforeOutput
    obtain hnone | hrecv := hrecv
    · rw [← hin, hnone, hiAt]
    · rw [hiAt, hin, hrecv]
  cases hy : p.outputAt s with
  | none => rw [edge_of_outputAt_none hy, edge_of_outputAt_none (hout ▸ hy), hbefore]
  | some y =>
    have hsent : p.sent = q.sent := hsent.resolve_left fun hnone => by simp [offer_of_outputAt hy] at hnone
    rw [edge_of_outputAt_some hy, edge_of_outputAt_some (hout ▸ hy), hbefore, hsent]

section Alone
variable {m : ChainMode} (k : KeySize) {s : State}

theorem exec_paddedCommand_of_encrypts (hm : encrypts m = true) (hrun : s.top = .run) (hpad : padInBounds s = true)
    (heng : engineInBounds s = true) :
    exec (paddedCommand m k) s = .next ((padPipeline.link (enginePipeline (modeStep m))).edge s) := by
  have hpipe := pipelineOf_paddedCommand_of_encrypts k hm
  rw [exec_edge hrun (by rw [hpipe]; simp [Pipeline.link, padPipeline, enginePipeline, hpad, heng]), hpipe]

theorem exec_paddedCommand_of_decrypts (hm : encrypts m = false) (hrun : s.top = .run) (heng : engineInBounds s = true)
    (hunp : unpadInBounds s = true) :
    exec (paddedCommand m k) s = .next (((enginePipeline (modeStep m)).link unpadPipeline).edge s) := by
  have hpipe := pipelineOf_paddedCommand_of_decrypts k hm
  rw [exec_edge hrun (by rw [hpipe]; simp [Pipeline.link, unpadPipeline, enginePipeline, hunp, heng]), hpipe]

variable (step : BlockStep)

theorem padEngine_edge_of_filling (hpad : s.pad.pst = .fill) (heng : s.eng.est = .fill) :
    (padPipeline.link (enginePipeline step)).edge s = padPipeline.edge s := by
  have hpadOffer : padOffer s = none := by simp [padOffer, hpad]
  have hengOffer : engineOffer s = none := by simp [engineOffer, heng]
  refine Pipeline.edge_congr ?_ rfl (.inr rfl) (hengOffer.trans hpadOffer.symm) (.inl hengOffer)
  simp [Pipeline.link, Pipeline.transfer, padPipeline, enginePipeline, engineInner, heng, hpadOffer]

theorem padEngine_edge_of_engine (heng : s.eng.est ≠ .fill) (hpad : s.pad.pst ≠ .fill ∨ arrivingItem s = none) :
    (padPipeline.link (enginePipeline step)).edge s = (enginePipeline step).edge s := by
  have hin : (padPipeline.link (enginePipeline step)).inputAt s = none := by
    simpa [Pipeline.inputAt, Pipeline.link, padPipeline, imp_iff_not_or] using hpad
  refine Pipeline.edge_congr ?_ ?_ (.inl hin) rfl (.inr rfl)
  · simp [Pipeline.link, Pipeline.transfer, padPipeline, enginePipeline, heng]
  · rw [hin]
    simp [Pipeline.inputAt, enginePipeline, heng]

theorem engineUnpad_edge_of_engine (hunp : s.unp.ust = .fill) (heng : s.eng.est = .fill ∨ s.eng.est = .xform) :
    ((enginePipeline step).link unpadPipeline).edge s = (enginePipeline step).edge s := by
  have hengOffer : engineOffer s = none := by obtain h | h := heng <;> simp [engineOffer, h]
  have hunpOffer : unpadOffer s = none := by simp [unpadOffer, hunp]
  refine Pipeline.edge_congr ?_ rfl (.inr rfl) (hunpOffer.trans hengOffer.symm) (.inl hunpOffer)
  simp [Pipeline.link, Pipeline.transfer, unpadPipeline, enginePipeline, hengOffer]

theorem engineUnpad_edge_of_unpad (hunp : s.unp.ust ≠ .fill) (heng : s.eng.est ≠ .fill ∨ arrivingItem s = none)
    (hxform : s.eng.est ≠ .xform) : ((enginePipeline step).link unpadPipeline).edge s = unpadPipeline.edge s := by
  have hin : ((enginePipeline step).link unpadPipeline).inputAt s = none := by
    simpa [Pipeline.inputAt, Pipeline.link, enginePipeline, imp_iff_not_or] using heng
  refine Pipeline.edge_congr ?_ ?_ (.inl hin) rfl (.inr rfl)
  · simp [Pipeline.link, Pipeline.transfer, unpadPipeline, enginePipeline, engineInner, hunp, hxform]
  · rw [hin]
    simp [Pipeline.inputAt, unpadPipeline, hunp]

end Alone

/-- Settles O32: on each of these edges the padded pipeline and the unit have the same parts. -/
theorem pipelineUnitsActAsTheyDoAlone : Obligations.PipelineUnitsActAsTheyDoAlone := by
  unfold Obligations.PipelineUnitsActAsTheyDoAlone
  intro m k s hrun
  refine ⟨fun hm hpad heng => ⟨fun hpst hest => ?_, fun hest hpst => ?_⟩,
    fun hm heng hunp => ⟨fun hust hest => ?_, fun hust hest hxform => ?_⟩⟩
  · rw [exec_paddedCommand_of_encrypts k hm hrun hpad heng, exec_pad hrun hpad, padEngine_edge_of_filling _ hpst hest]
  · rw [exec_paddedCommand_of_encrypts k hm hrun hpad heng, exec_chainCommand m k hrun heng,
      padEngine_edge_of_engine _ hest hpst]
  · rw [exec_paddedCommand_of_decrypts k hm hrun heng hunp, exec_chainCommand m k hrun heng,
      engineUnpad_edge_of_engine _ hust hest]
  · rw [exec_paddedCommand_of_decrypts k hm hrun heng hunp, exec_unpad hrun hunp,
      engineUnpad_edge_of_unpad _ hust hest hxform]

end Sys2Proof.Machine
end

section
/-! What every edge of a running command keeps: the registers it does not own, the terminal a worker offers, and the
invariant of the core (10_state.md R38; 40_round_primitives.md R157; 43_chaining.md R242; 60_exceptions.md R346). -/

namespace Sys2Proof.Machine

open Sys2Proof.Safety Relation

/-! ### From the steps of the core to an edge -/

/-- What holds of every step of the core and composes holds of every edge. -/
theorem edge_of_coreSteps {i : Instr} {R : State → State → Prop} (hrefl : ∀ s, R s s)
    (htrans : ∀ {s t u}, R s t → R t u → R s u) (hstep : ∀ {s t}, CoreStep i s t → R s t) (s : State) :
    R s ((pipelineOf i).edge s) := by
  obtain ⟨-, -, -, hsame⟩ | hsteps := edge_coreSteps i s
  · rw [hsame]; exact hrefl s
  · generalize (pipelineOf i).edge s = t at hsteps
    induction hsteps with
    | single h => exact hstep h
    | tail _ h ih => exact htrans ih (hstep h)

theorem first_mem {i : Instr} {w : Worker} (h : (workersOf i).head? = some w) : w ∈ workersOf i := List.mem_of_head? h

theorem last_mem {i : Instr} {w : Worker} (h : (workersOf i).getLast? = some w) : w ∈ workersOf i := List.mem_of_getLast? h

theorem pair_apart {i : Instr} {u d : Worker} (h : workersOf i = [u, d]) :
    u ∈ workersOf i ∧ d ∈ workersOf i ∧ Apart u d := by
  refine ⟨by simp [h], by simp [h], ?_⟩
  obtain ⟨w, hw⟩ | hw | hw := workersOf_cases i
  · simp [hw] at h
  · obtain ⟨rfl, rfl⟩ : .pad = u ∧ .engine = d := by simpa [hw] using h
    exact pad_apart_engine
  · obtain ⟨rfl, rfl⟩ : .engine = u ∧ .unpad = d := by simpa [hw] using h
    exact engine_apart_unpad

/-- The downstream worker still receives when the upstream one has sent. -/
theorem filling_after_sent {i : Instr} {u d : Worker} (h : workersOf i = [u, d]) {s : State}
    (hfill : (unitOf i d).filling s = true) : (unitOf i d).filling ((unitOf i u).sent s) = true := by
  obtain ⟨hu, hd, hapart⟩ := pair_apart h
  exact ((unitOf_runBy hd).filling_view (((unitOf_runBy hu).sent_writes s).sameView hapart)).trans hfill

/-! ### The registers a command does not own (R38) -/

/-- The commands that invoke neither the block core nor a primitive. -/
def LeavesCore (i : Instr) : Prop := i = .pad ∨ i = .unpad ∨ ∃ k, i = .keySched k

/-- What no step of the running command `i` changes (R38). -/
structure Framed (i : Instr) (s t : State) : Prop where
  latch : t.latch = s.latch
  sched : t.sched = s.sched
  one : .oneshot ∉ workersOf i → t.one = s.one
  pad : .pad ∉ workersOf i → t.pad = s.pad
  eng : .engine ∉ workersOf i → t.eng = s.eng
  unp : .unpad ∉ workersOf i → t.unp = s.unp
  core : LeavesCore i → t.core = s.core
  cmdValid : t.env.cmdValid = s.env.cmdValid
  job : t.env.job = s.env.job
  jobs : t.env.jobs = s.env.jobs
  moves : t.env.moves = s.env.moves
  rest : t.env.rest = s.env.rest
  edges : t.edges = s.edges

namespace Framed
variable {i : Instr} {s t u : State}

theorem refl (i : Instr) (s : State) : Framed i s s :=
  ⟨rfl, rfl, fun _ => rfl, fun _ => rfl, fun _ => rfl, fun _ => rfl, fun _ => rfl, rfl, rfl, rfl, rfl, rfl, rfl⟩

theorem trans (h : Framed i s t) (h' : Framed i t u) : Framed i s u where
  latch := h'.latch.trans h.latch
  sched := h'.sched.trans h.sched
  one hw := (h'.one hw).trans (h.one hw)
  pad hw := (h'.pad hw).trans (h.pad hw)
  eng hw := (h'.eng hw).trans (h.eng hw)
  unp hw := (h'.unp hw).trans (h.unp hw)
  core hi := (h'.core hi).trans (h.core hi)
  cmdValid := h'.cmdValid.trans h.cmdValid
  job := h'.job.trans h.job
  jobs := h'.jobs.trans h.jobs
  moves := h'.moves.trans h.moves
  rest := h'.rest.trans h.rest
  edges := h'.edges.trans h.edges

/-- A worker of the command writes what it owns. -/
theorem of_writesOnly {w : Worker} (hw : w ∈ workersOf i) (h : WritesOnly w s t) (hcore : LeavesCore i → t.core = s.core) :
    Framed i s t where
  latch := h.latch
  sched := h.sched
  one ho := h.one fun heq => ho (heq ▸ hw)
  pad ho := h.pad fun heq => ho (heq ▸ hw)
  eng ho := h.eng fun heq => ho (heq ▸ hw)
  unp ho := h.unp fun heq => ho (heq ▸ hw)
  core := hcore
  cmdValid := by rw [h.env]
  job := by rw [h.env]
  jobs := by rw [h.env]
  moves := by rw [h.env]
  rest := by rw [h.env]
  edges := h.edges

theorem hostSent (i : Instr) (x : Item) (s : State) : Framed i s (hostSent x s) :=
  ⟨rfl, rfl, fun _ => rfl, fun _ => rfl, fun _ => rfl, fun _ => rfl, fun _ => rfl, rfl, rfl, rfl, rfl, rfl, rfl⟩

theorem hostTook (i : Instr) (x : Item) (s : State) : Framed i s (hostTook x s) := by
  constructor <;> simp

end Framed

/-- In PAD, UNPAD and KEYSCHED no worker touches the block core. -/
theorem unitOf_core {i : Instr} {w : Worker} (hi : LeavesCore i) (hw : w ∈ workersOf i) (s : State) :
    (∀ x, ((unitOf i w).receive x s).core = s.core) ∧ ((unitOf i w).sent s).core = s.core ∧
      ∀ t, (unitOf i w).inner s = some t → t.core = s.core := by
  have hrun := unitOf_runBy hw
  have hother : ¬UsesCore w → (∀ x, ((unitOf i w).receive x s).core = s.core) ∧ ((unitOf i w).sent s).core = s.core ∧
      ∀ t, (unitOf i w).inner s = some t → t.core = s.core := fun hn =>
    ⟨fun x => (hrun.receive_writes x s).core hn, (hrun.sent_writes s).core hn, fun t ht => (hrun.inner_writes ht).core hn⟩
  obtain rfl | rfl | ⟨k, rfl⟩ := hi
  · obtain rfl : w = .pad := by simpa [workersOf] using hw
    exact hother (by simp [UsesCore])
  · obtain rfl : w = .unpad := by simpa [workersOf] using hw
    exact hother (by simp [UsesCore])
  · obtain rfl : w = .oneshot := by simpa [workersOf] using hw
    refine ⟨fun _ => rfl, keysSent_core s, fun t ht => ?_⟩
    obtain ⟨-, rfl⟩ : s.one.ost = .compute ∧ computeKeySched s = t := by
      simpa [unitOf, pipelineOf, keysPipeline] using ht
    rw [computeKeySched_eq]

theorem coreStep_framed {i : Instr} {s t : State} (h : CoreStep i s t) : Framed i s t := by
  cases h with
  | inner hw ht => exact .of_writesOnly hw ((unitOf_runBy hw).inner_writes ht) fun hi => (unitOf_core hi hw s).2.2 _ ht
  | transfer hw hoffer hfill =>
    obtain ⟨hu, hd, -⟩ := pair_apart hw
    exact (Framed.of_writesOnly hu ((unitOf_runBy hu).sent_writes s) fun hi => (unitOf_core hi hu s).2.1).trans
      (.of_writesOnly hd ((unitOf_runBy hd).receive_writes _ _) fun hi => (unitOf_core hi hd _).1 _)
  | input hw hfill hx =>
    have hw := first_mem hw
    exact (Framed.of_writesOnly hw ((unitOf_runBy hw).receive_writes _ s) fun hi => (unitOf_core hi hw s).1 _).trans
      (.hostSent i _ _)
  | output hw hoffer =>
    have hw := last_mem hw
    exact (Framed.of_writesOnly hw ((unitOf_runBy hw).sent_writes s) fun hi => (unitOf_core hi hw s).2.1).trans
      (.hostTook i _ _)

theorem edge_framed (i : Instr) (s : State) : Framed i s ((pipelineOf i).edge s) :=
  edge_of_coreSteps (Framed.refl i) Framed.trans coreStep_framed s

/-- Settles O43: every step of the core leaves them, by the owner of what it writes. -/
theorem onlyTheOwnersRegistersChange : Obligations.OnlyTheOwnersRegistersChange := by
  unfold Obligations.OnlyTheOwnersRegistersChange
  intro i s t hrun h
  obtain ⟨hidle, -⟩ | ⟨-, -, rfl⟩ := exec_next_cases h
  · simp [hrun] at hidle
  · obtain ⟨hlatch, hsched, hone, hpad, heng, hunp, hcore, hcmd, hjob, hjobs, hmoves, hrest, hedges⟩ := edge_framed i s
    exact ⟨hlatch, hsched, hone, hpad, heng, hunp, hcore, hcmd, hjob, hjobs, hmoves, hrest, hedges⟩

/-! ### A worker that offers its terminal (R242, R298) -/

/-- From `s` to `t` the worker, if it offers its terminal, offers it still or is done, and if it is done, stays done. -/
def KeepsTerminal (w : Worker) (s t : State) : Prop :=
  (∀ x, workerTerminal w s = some x → workerTerminal w t = some x ∨ workerDone w t = true) ∧
    (workerDone w s = true → workerDone w t = true)

namespace KeepsTerminal
variable {w v : Worker} {s t u : State}

theorem refl (w : Worker) (s : State) : KeepsTerminal w s s := ⟨fun _ h => .inl h, id⟩

theorem trans (h : KeepsTerminal w s t) (h' : KeepsTerminal w t u) : KeepsTerminal w s u :=
  ⟨fun x hx => (h.1 x hx).elim (h'.1 x) fun hdone => .inr (h'.2 hdone), h'.2 ∘ h.2⟩

theorem of_eq (hterm : workerTerminal w t = workerTerminal w s) (hdone : workerDone w t = workerDone w s) :
    KeepsTerminal w s t :=
  ⟨fun _ h => .inl (hterm.trans h), fun h => hdone.trans h⟩

/-- What another worker writes does not reach the control state. -/
theorem of_other (h : WritesOnly v s t) (hne : v ≠ w) : KeepsTerminal w s t := by
  cases w with
  | oneshot => exact .of_eq (by simp only [workerTerminal, h.one hne]) (by simp only [workerDone, h.one hne])
  | pad => exact .of_eq (by simp only [workerTerminal, h.pad hne]) (by simp only [workerDone, h.pad hne])
  | engine => exact .of_eq (by simp only [workerTerminal, h.eng hne]) (by simp only [workerDone, h.eng hne])
  | unpad => exact .of_eq (by simp only [workerTerminal, h.unp hne]) (by simp only [workerDone, h.unp hne])

/-- A worker that neither offers a terminal nor is done has nothing to keep. -/
theorem of_working (hterm : workerTerminal w s = none) (hdone : workerDone w s = false) : KeepsTerminal w s t :=
  ⟨fun x hx => by simp [hterm] at hx, fun h => by simp [hdone] at h⟩

theorem hostSent (w : Worker) (x : Item) (s : State) : KeepsTerminal w s (hostSent x s) :=
  .of_eq (sameView_hostSent w x s).workerTerminal_eq (sameView_hostSent w x s).workerDone_eq

theorem hostTook (w : Worker) (x : Item) (s : State) : KeepsTerminal w s (hostTook x s) :=
  .of_eq (sameView_hostTook w x s).workerTerminal_eq (sameView_hostTook w x s).workerDone_eq

end KeepsTerminal

namespace Pipeline.RunBy
variable {p : Pipeline} {v : Worker} (hp : p.RunBy v) {s : State}
include hp

theorem terminal_none_of_no_offer (h : p.offer s = none) : workerTerminal v s = none := by
  by_contra hsome
  obtain ⟨t, ht⟩ := Option.ne_none_iff_exists'.mp hsome
  simp [hp.offer_term.mpr ht] at h

theorem offer_none_of_filling (h : p.filling s = true) : p.offer s = none := by
  by_contra hsome
  obtain ⟨x, hx⟩ := Option.ne_none_iff_exists'.mp hsome
  simp [hp.offer_alone hx] at h

theorem not_done_of_filling (h : p.filling s = true) : workerDone v s = false := by
  by_contra hdone
  simp [(hp.done_quiet (by simpa using hdone)).1] at h

theorem receive_keepsTerminal (w : Worker) (x : Item) (hfill : p.filling s = true) :
    KeepsTerminal w s (p.receive x s) := by
  by_cases hvw : v = w
  · subst hvw
    exact .of_working (hp.terminal_none_of_no_offer (hp.offer_none_of_filling hfill)) (hp.not_done_of_filling hfill)
  · exact .of_other (hp.receive_writes x s) hvw

theorem sent_keepsTerminal (w : Worker) {x : Item} (hoffer : p.offer s = some x) : KeepsTerminal w s (p.sent s) := by
  by_cases hvw : v = w
  · subst hvw
    refine ⟨fun t ht => .inr (hp.sent_term ht), fun hdone => ?_⟩
    simp [(hp.done_quiet hdone).2.1] at hoffer
  · exact .of_other (hp.sent_writes s) hvw

theorem inner_keepsTerminal (w : Worker) {t : State} (h : p.inner s = some t) : KeepsTerminal w s t := by
  by_cases hvw : v = w
  · subst hvw
    refine .of_working (hp.terminal_none_of_no_offer (hp.inner_alone h).2) ?_
    by_contra hdone
    simp [(hp.done_quiet (by simpa using hdone)).2.2] at h
  · exact .of_other (hp.inner_writes h) hvw

end Pipeline.RunBy

theorem coreStep_keepsTerminal (w : Worker) {i : Instr} {s t : State} (h : CoreStep i s t) : KeepsTerminal w s t := by
  cases h with
  | inner hw ht => exact (unitOf_runBy hw).inner_keepsTerminal w ht
  | transfer hw hoffer hfill =>
    obtain ⟨hu, hd, -⟩ := pair_apart hw
    exact ((unitOf_runBy hu).sent_keepsTerminal w hoffer).trans
      ((unitOf_runBy hd).receive_keepsTerminal w _ (filling_after_sent hw hfill))
  | input hw hfill hx => exact ((unitOf_runBy (first_mem hw)).receive_keepsTerminal w _ hfill).trans (.hostSent w _ _)
  | output hw hoffer => exact ((unitOf_runBy (last_mem hw)).sent_keepsTerminal w hoffer).trans (.hostTook w _ _)

/-- Settles O46: every step of the core keeps it, since only a send takes a worker out of its TERM state. -/
theorem nothingFollowsATerminal : Obligations.NothingFollowsATerminal := by
  unfold Obligations.NothingFollowsATerminal
  intro s t w h hrun hrst habt
  obtain ⟨i, rfl⟩ := step_of_running h hrun hrst habt
  have hedge : KeepsTerminal w s ((pipelineOf i).edge s) :=
    edge_of_coreSteps (KeepsTerminal.refl w) KeepsTerminal.trans (coreStep_keepsTerminal w) s
  exact hedge.trans (.of_eq (sameView_closeEdge w _).workerTerminal_eq (sameView_closeEdge w _).workerDone_eq)

/-! ### The invariant, worker by worker (R157, R346) -/

/-- What holds of the latches and the schedule while the command `i` runs (R22, R27, R109). -/
structure RunStatic (i : Instr) (s : State) : Prop where
  latched : s.latch.cmdr = encode i
  blockSize : blockSizeOk i s.latch.bsz = true
  keyCount : s.sched.rkn = if usesSchedule i = true ∧ keySizeOf i = .k128 then 11 else 0
  keys : s.sched.rkn = 11 → s.sched.rk = scheduleOf s.latch.key

/-- What holds of a worker that the running command `i` uses, by its control state. -/
def WorkerInv (i : Instr) (w : Worker) (s : State) : Prop :=
  match w with
  | .oneshot => match s.one.ost with
    | .idle => False
    | .emit => s.one.oj < 16 ∧ (∀ k, i = .keySched k → s.one.oi < 11) ∧ (usesSchedule i = true → s.sched.rkn = 11)
    | .term t => t ∈ workerReportable i .oneshot
    | .compute | .done => True
  | .pad => match s.pad.pst with
    | .idle => False
    | .fill => s.pad.pcnt < s.latch.bsz
    | .flush => s.pad.pout < s.latch.bsz
    | .term t => t ∈ workerReportable i .pad
    | .done => True
  | .engine => match s.eng.est with
    | .idle => False
    | .fill => s.eng.icnt < 16
    | .xform => s.eng.icnt = 16
    | .drain => s.eng.icnt = 0 ∧ s.eng.ocnt < 16
    | .term t => t ∈ workerReportable i .engine
    | .done => True
  | .unpad => match s.unp.ust with
    | .idle => False
    | .fill => s.unp.ucnt ≤ s.latch.bsz
    | .flush => s.unp.uout < s.unp.ulim ∧ s.unp.ulim ≤ s.latch.bsz
    | .term t => t ∈ workerReportable i .unpad
    | .done => True

/-- `RunInv` but for the last worker's not being done: what every step of the core keeps. -/
structure CoreInv (i : Instr) (s : State) : Prop where
  fixed : RunStatic i s
  working : ∀ w ∈ workersOf i, WorkerInv i w s
  others : ∀ w ∉ workersOf i, workerIdle w s = true

/-- The last worker has not delivered its terminal (R309). -/
def Unfinished (i : Instr) (s : State) : Prop := ∀ w, (workersOf i).getLast? = some w → workerDone w s = false

theorem WorkerInv.not_idle {i : Instr} {w : Worker} {s : State} (h : WorkerInv i w s) : workerIdle w s = false := by
  cases w with
  | oneshot => cases hst : s.one.ost <;> simp_all [WorkerInv, workerIdle]
  | pad => cases hst : s.pad.pst <;> simp_all [WorkerInv, workerIdle]
  | engine => cases hst : s.eng.est <;> simp_all [WorkerInv, workerIdle]
  | unpad => cases hst : s.unp.ust <;> simp_all [WorkerInv, workerIdle]

theorem WorkerInv.reportable {i : Instr} {w : Worker} {s : State} {t : Terminal} (h : WorkerInv i w s)
    (ht : workerTerminal w s = some t) : t ∈ workerReportable i w := by
  cases w with
  | oneshot => cases hst : s.one.ost <;> simp_all [WorkerInv, workerTerminal]
  | pad => cases hst : s.pad.pst <;> simp_all [WorkerInv, workerTerminal]
  | engine => cases hst : s.eng.est <;> simp_all [WorkerInv, workerTerminal]
  | unpad => cases hst : s.unp.ust <;> simp_all [WorkerInv, workerTerminal]

theorem workerTerminal_of_idle {w : Worker} {s : State} (h : workerIdle w s = true) : workerTerminal w s = none := by
  cases w <;> simp_all [workerIdle, workerTerminal]

theorem oneshot_inBounds_iff {i : Instr} (h : .oneshot ∈ workersOf i) (s : State) :
    (pipelineOf i).inBounds s = true ↔
      (s.one.ost = .emit → s.one.oj < 16 ∧ ∀ k, i = .keySched k → s.one.oi < 11) := by
  cases i with
  | subBytes | invSubBytes | shiftRows | invShiftRows | mixColumns | invMixColumns | addRoundKey | blockEnc | blockDec =>
    exact blockPipeline_inBounds.trans (by simp)
  | keySched => simp [pipelineOf, keysPipeline, or_iff_not_imp_left]
  | ecbEnc | ecbDec | cbcEnc | cbcDec | ecbEncPad | ecbDecUnpad | cbcEncPad | cbcDecUnpad | pad | unpad =>
    simp [workersOf] at h

theorem pipelineOf_inBounds_iff (i : Instr) (s : State) :
    (pipelineOf i).inBounds s = true ↔ ∀ w ∈ workersOf i, (unitOf i w).inBounds s = true := by
  obtain ⟨w, hw⟩ | hw | hw := workersOf_cases i
  · simp [pipelineOf_of_single hw, hw]
  · simp [pipelineOf_of_pair hw, hw, Pipeline.link]
  · simp [pipelineOf_of_pair hw, hw, Pipeline.link]

theorem WorkerInv.inBounds {i : Instr} {w : Worker} {s : State} (hw : w ∈ workersOf i) (h : WorkerInv i w s) :
    (unitOf i w).inBounds s = true := by
  cases w with
  | oneshot =>
    refine (oneshot_inBounds_iff hw s).mpr fun hst => ?_
    simp only [WorkerInv, hst] at h
    exact ⟨h.1, h.2.1⟩
  | pad => cases hst : s.pad.pst <;> simp_all [WorkerInv, unitOf, padPipeline, padInBounds]
  | engine => cases hst : s.eng.est <;> simp_all [WorkerInv, unitOf, enginePipeline, engineInBounds]
  | unpad => cases hst : s.unp.ust <;> simp_all [WorkerInv, unitOf, unpadPipeline, unpadInBounds]

theorem CoreInv.inBounds {i : Instr} {s : State} (h : CoreInv i s) : (pipelineOf i).inBounds s = true :=
  (pipelineOf_inBounds_iff i s).mpr fun w hw => (h.working w hw).inBounds hw

/-- The clauses of `RunInv` on a worker's registers are `WorkerInv`, read at its control state. -/
theorem workerInv_of_runInv {i : Instr} {s : State} (h : RunInv i s) {w : Worker} (hw : w ∈ workersOf i) :
    WorkerInv i w s := by
  have hactive : workerIdle w s = false := by
    by_contra hidle
    exact (h.wired w).mp (by simpa using hidle) hw
  have hbounds := (pipelineOf_inBounds_iff i s).mp h.bounds w hw
  have hterm := h.terminals w
  cases w with
  | oneshot =>
    have hemit := (oneshot_inBounds_iff hw s).mp hbounds
    have hvalid := h.validSchedule
    cases hst : s.one.ost with
    | emit => simpa only [WorkerInv, hst, and_assoc] using And.intro (hemit hst) fun hu => hvalid hu hst
    | idle | compute | term | done => simp_all [WorkerInv, workerIdle, workerTerminal]
  | pad =>
    cases hst : s.pad.pst <;>
      simp_all [WorkerInv, workerIdle, workerTerminal, unitOf, padPipeline, padInBounds]
  | engine =>
    have hfull := h.fullBlock
    have hempty := h.emptyBlock
    cases hst : s.eng.est <;>
      simp_all [WorkerInv, workerIdle, workerTerminal, unitOf, enginePipeline, engineInBounds]
  | unpad =>
    cases hst : s.unp.ust <;>
      simp_all [WorkerInv, workerIdle, workerTerminal, unitOf, unpadPipeline, unpadInBounds]

theorem runInv_iff {i : Instr} {s : State} : RunInv i s ↔ CoreInv i s ∧ Unfinished i s := by
  constructor
  · intro h
    exact ⟨⟨⟨h.latched, h.blockSize, h.keyCount, h.keys⟩, fun w => workerInv_of_runInv h, fun w => (h.wired w).mpr⟩,
      h.unfinished⟩
  · rintro ⟨⟨⟨hlatched, hsize, hcount, hkeys⟩, hworking, hothers⟩, hunfinished⟩
    have hengine : s.eng.est ≠ .idle → WorkerInv i .engine s := fun hne =>
      hworking _ (by by_contra hn; exact hne (by simpa [workerIdle] using hothers _ hn))
    have honeshot : s.one.ost ≠ .idle → WorkerInv i .oneshot s := fun hne =>
      hworking _ (by by_contra hn; exact hne (by simpa [workerIdle] using hothers _ hn))
    refine ⟨hlatched, hsize, fun w => ⟨fun hidle hw => ?_, hothers w⟩, hunfinished, hcount, hkeys,
      CoreInv.inBounds ⟨⟨hlatched, hsize, hcount, hkeys⟩, hworking, hothers⟩, fun hst => ?_, fun hst => ?_,
      fun husesed hst => ?_, fun w t ht => ?_⟩
    · simp [(hworking w hw).not_idle] at hidle
    · simpa [WorkerInv, hst] using hengine (by simp [hst])
    · have hinv := hengine (by simp [hst])
      simp only [WorkerInv, hst] at hinv
      exact hinv.1
    · have hinv := honeshot (by simp [hst])
      simp only [WorkerInv, hst] at hinv
      exact hinv.2.2 husesed
    · by_cases hw : w ∈ workersOf i
      · exact (hworking w hw).reportable ht
      · simp [workerTerminal_of_idle (hothers w hw)] at ht

/-! ### Each worker's actions keep its part of the invariant -/

/-- The blksz of a command that uses PAD or UNPAD is not 0 (R109). -/
theorem bsz_pos_of_blockSizeOk {i : Instr} {bsz : BitVec 8} (h : blockSizeOk i bsz = true)
    (hw : .pad ∈ workersOf i ∨ .unpad ∈ workersOf i) : 0 < bsz := by
  have hne : bsz ≠ 0 := by obtain hw | hw := hw <;> simpa [blockSizeOk, hw] using h
  bv_omega

theorem RunStatic.bsz_pos {i : Instr} {s : State} (h : RunStatic i s) (hw : .pad ∈ workersOf i ∨ .unpad ∈ workersOf i) :
    0 < s.latch.bsz := bsz_pos_of_blockSizeOk h.blockSize hw

theorem RunStatic.size_of_valid {i : Instr} {s : State} (h : RunStatic i s) (hvalid : s.sched.rkn = 11) :
    keySizeOf i = .k128 := by
  by_contra hne
  rw [h.keyCount, if_neg fun hb => hne hb.2] at hvalid
  exact absurd hvalid (by decide)

theorem RunStatic.size_of_empty {i : Instr} {s : State} (h : RunStatic i s) (huses : usesSchedule i = true)
    (hempty : s.sched.rkn ≠ 11) : keySizeOf i ≠ .k128 := fun hk => hempty (by rw [h.keyCount, if_pos ⟨huses, hk⟩])

theorem RunStatic.rkn_cases {i : Instr} {s : State} (h : RunStatic i s) : s.sched.rkn = 0 ∨ s.sched.rkn = 11 := by
  rw [h.keyCount]
  split
  · exact .inr rfl
  · exact .inl rfl

/-- An item that the worker can pass on: if it is a terminal, one that the worker can report. -/
def Passable (i : Instr) (w : Worker) (x : Item) : Prop := ∀ t, x = .term t → t ∈ workerReportable i w

/-- The actions of a worker of `i` keep its part of the invariant, and only its terminal being taken makes it done. -/
structure KeepsInv (i : Instr) (w : Worker) : Prop where
  receive : ∀ {x s}, RunStatic i s → WorkerInv i w s → (unitOf i w).filling s = true → Passable i w x →
    WorkerInv i w ((unitOf i w).receive x s) ∧ workerDone w ((unitOf i w).receive x s) = false
  inner : ∀ {s t}, RunStatic i s → WorkerInv i w s → (unitOf i w).inner s = some t →
    WorkerInv i w t ∧ workerDone w t = false
  sent_data : ∀ {b s}, RunStatic i s → WorkerInv i w s → (unitOf i w).offer s = some (.data b) →
    WorkerInv i w ((unitOf i w).sent s) ∧ workerDone w ((unitOf i w).sent s) = false
  sent_term : ∀ {t s}, (unitOf i w).offer s = some (.term t) → WorkerInv i w ((unitOf i w).sent s)

theorem pad_keepsInv {i : Instr} (hw : .pad ∈ workersOf i) : KeepsInv i .pad where
  receive := by
    intro x s hfixed hinv hfill hpass
    have hst : s.pad.pst = .fill := by simpa [unitOf, padPipeline] using hfill
    have hpos := hfixed.bsz_pos (.inl hw)
    simp only [WorkerInv, hst] at hinv
    rcases x with b | (_ | e)
    · simp only [unitOf, padPipeline, padReceive_data]
      split
      · simpa [WorkerInv, workerDone] using hpos
      · simp only [WorkerInv, workerDone, hst]
        exact ⟨by bv_omega, by simp⟩
    · simpa [unitOf, padPipeline, padReceive_eos, WorkerInv, workerDone] using hpos
    · simpa [unitOf, padPipeline, padReceive_fail, WorkerInv, workerDone] using hpass _ rfl
  inner _ _ h := nomatch h
  sent_data := by
    intro b s hfixed hinv hoffer
    have hst : s.pad.pst = .flush := by
      cases hst : s.pad.pst <;> simp [unitOf, padPipeline, padOffer, hst] at hoffer ⊢
    have hpos := hfixed.bsz_pos (.inl hw)
    simp only [WorkerInv, hst] at hinv
    simp only [unitOf, padPipeline, padSent_of_flush hst]
    split
    · split
      · simp [WorkerInv, workerDone, workerReportable]
      · simpa [WorkerInv, workerDone] using hpos
    · simp only [WorkerInv, workerDone, hst]
      exact ⟨by bv_omega, by simp⟩
  sent_term := by
    intro t s hoffer
    have hst : s.pad.pst = .term t := by
      cases hst : s.pad.pst <;> simp_all [unitOf, padPipeline, padOffer]
    simp [unitOf, padPipeline, padSent_of_term hst, WorkerInv]

theorem engine_keepsInv {i : Instr} (hw : .engine ∈ workersOf i) : KeepsInv i .engine where
  receive := by
    intro x s hfixed hinv hfill hpass
    have hst : s.eng.est = .fill := by simpa [unitOf, enginePipeline] using hfill
    simp only [WorkerInv, hst] at hinv
    rcases x with b | (_ | e)
    · simp only [unitOf, enginePipeline, engineReceive_data hst, WorkerInv, workerDone]
      by_cases hlast : s.eng.icnt = 15
      · simp [hlast]
      · simp only [hlast, if_false]
        exact ⟨by bv_omega, by simp⟩
    · by_cases hzero : s.eng.icnt = 0#5 <;>
        simp [unitOf, enginePipeline, engineReceive_eos, WorkerInv, workerDone, workerReportable, hzero]
    · simpa [unitOf, enginePipeline, engineReceive_fail, WorkerInv, workerDone] using hpass _ rfl
  inner := by
    intro s t hfixed hinv h
    obtain ⟨hst, rfl⟩ : s.eng.est = .xform ∧ engineXform (modeStep (modeOf i)) s = t := by
      simpa [unitOf, enginePipeline, engineInner] using h
    rw [engineXform_modeStep]
    split
    · simp [WorkerInv, workerDone]
    · next hempty =>
      have huses : usesSchedule i = true := by cases i <;> simp_all [workersOf, usesSchedule]
      have hsize := hfixed.size_of_empty huses hempty
      simp [WorkerInv, workerDone, workerReportable, iseTerminal, hsize]
  sent_data := by
    intro b s hfixed hinv hoffer
    have hst : s.eng.est = .drain := by
      cases hst : s.eng.est <;> simp [unitOf, enginePipeline, engineOffer, hst] at hoffer ⊢
    simp only [WorkerInv, hst] at hinv
    obtain ⟨hicnt, hocnt⟩ := hinv
    simp only [unitOf, enginePipeline, engineSent_of_drain hst, WorkerInv, workerDone]
    by_cases hlast : s.eng.ocnt = 15
    · simp [hlast, hicnt]
    · simp only [hlast, if_false]
      exact ⟨⟨hicnt, by bv_omega⟩, by simp⟩
  sent_term := by
    intro t s hoffer
    have hst : s.eng.est = .term t := by
      cases hst : s.eng.est <;> simp_all [unitOf, enginePipeline, engineOffer]
    simp [unitOf, enginePipeline, engineSent_of_term hst, WorkerInv]

theorem unpad_reportable {i : Instr} (hw : .unpad ∈ workersOf i) :
    .eos ∈ reportable i ∧ .fail .lce ∈ reportable i ∧ .fail .pae ∈ reportable i := by
  cases i <;> simp_all [workersOf, reportable]

/-- UNPAD at the end of input offers a terminal, or bytes of its full block. -/
theorem unpadEnd_keepsInv {i : Instr} (hw : .unpad ∈ workersOf i) {s : State} (hle : s.unp.ucnt ≤ s.latch.bsz) :
    WorkerInv i .unpad (unpadEnd s) ∧ workerDone .unpad (unpadEnd s) = false := by
  obtain ⟨heos, hlce, hpae⟩ := unpad_reportable hw
  by_cases hzero : s.unp.ucnt = 0
  · simpa [unpadEnd_of_empty hzero, WorkerInv, workerDone, workerReportable] using hpae
  by_cases hlt : s.unp.ucnt < s.latch.bsz
  · simpa [unpadEnd_of_partial hzero hlt, WorkerInv, workerDone, workerReportable] using hlce
  have hfull : s.unp.ucnt = s.latch.bsz := by bv_omega
  rw [unpadEnd_of_full hzero hfull]
  split
  · next hvalid =>
    obtain ⟨hne, hle, -⟩ := (paddingValid_iff _ _ _).mp hvalid
    by_cases hall : readAt s.unp.ubuf (s.latch.bsz.toNat - 1) = s.latch.bsz
    · simpa [hall, WorkerInv, workerDone, workerReportable] using heos
    · simp only [hall, if_false, WorkerInv, workerDone]
      exact ⟨by bv_omega, by simp⟩
  · simpa [WorkerInv, workerDone, workerReportable] using hpae

theorem unpad_keepsInv {i : Instr} (hw : .unpad ∈ workersOf i) : KeepsInv i .unpad where
  receive := by
    intro x s hfixed hinv hfill hpass
    have hst : s.unp.ust = .fill := by simpa [unitOf, unpadPipeline] using hfill
    have hpos := hfixed.bsz_pos (.inr hw)
    simp only [WorkerInv, hst] at hinv
    rcases x with b | (_ | e)
    · simp only [unitOf, unpadPipeline, unpadReceive_data]
      split
      · simp only [WorkerInv, workerDone, hst]
        exact ⟨by bv_omega, by simp⟩
      · simpa [WorkerInv, workerDone] using hpos
    · exact unpadEnd_keepsInv hw hinv
    · simpa [unitOf, unpadPipeline, unpadReceive_fail, WorkerInv, workerDone] using hpass _ rfl
  inner _ _ h := nomatch h
  sent_data := by
    intro b s hfixed hinv hoffer
    have hst : s.unp.ust = .flush := by
      cases hst : s.unp.ust <;> simp [unitOf, unpadPipeline, unpadOffer, hst] at hoffer ⊢
    have hpos := hfixed.bsz_pos (.inr hw)
    simp only [WorkerInv, hst] at hinv
    obtain ⟨hout, hlim⟩ := hinv
    simp only [unitOf, unpadPipeline, unpadSent_of_flush hst]
    split
    · split
      · simpa [WorkerInv, workerDone, workerReportable] using (unpad_reportable hw).1
      · simp only [WorkerInv, workerDone]
        exact ⟨by bv_omega, by simp⟩
    · simp only [WorkerInv, workerDone, hst]
      exact ⟨⟨by bv_omega, hlim⟩, by simp⟩
  sent_term := by
    intro t s hoffer
    have hst : s.unp.ust = .term t := by
      cases hst : s.unp.ust <;> simp_all [unitOf, unpadPipeline, unpadOffer]
    simp [unitOf, unpadPipeline, unpadSent_of_term hst, WorkerInv]

/-- ONESHOT with a block result, by what it computes. -/
theorem blockPipeline_keepsInv {i : Instr} {compute : State → State} (hi : pipelineOf i = blockPipeline compute)
    (hcompute : ∀ s, RunStatic i s → WorkerInv i .oneshot (compute s) ∧ workerDone .oneshot (compute s) = false)
    (heos : ∀ s, RunStatic i s → (usesSchedule i = true → s.sched.rkn = 11) → .eos ∈ reportable i) :
    KeepsInv i .oneshot where
  receive := by
    intro x s _ _ hfill
    simp [unitOf, hi, blockPipeline] at hfill
  inner := by
    intro s t hfixed _ h
    obtain ⟨-, rfl⟩ : s.one.ost = .compute ∧ compute s = t := by simpa [unitOf, hi] using h
    exact hcompute s hfixed
  sent_data := by
    intro b s hfixed hinv hoffer
    have hst : s.one.ost = .emit := by
      cases hst : s.one.ost <;> simp [unitOf, hi, blockOffer, hst] at hoffer ⊢
    simp only [WorkerInv, hst] at hinv
    obtain ⟨hoj, hoi, hvalid⟩ := hinv
    simp only [unitOf, hi, blockPipeline_sent, blockSent_of_emit hst, WorkerInv, workerDone]
    by_cases hlast : s.one.oj = 15
    · simpa [hlast, workerReportable] using heos s hfixed hvalid
    · simp only [hlast, if_false]
      exact ⟨⟨by bv_omega, hoi, hvalid⟩, by simp⟩
  sent_term := by
    intro t s hoffer
    have hst : s.one.ost = .term t := by
      cases hst : s.one.ost <;> simp_all [unitOf, blockOffer]
    simp [unitOf, hi, blockSent_of_term hst, WorkerInv]

/-- A primitive command offers its block and then `End`. -/
theorem primitive_keepsInv {i : Instr} {y : Block → Block → Block}
    (hi : pipelineOf i = blockPipeline fun s => computePrimitive (y s.latch.blk s.latch.key) s)
    (huses : usesSchedule i = false) (heos : .eos ∈ reportable i) : KeepsInv i .oneshot := by
  have hkeys : ∀ k, i ≠ .keySched k := by
    rintro k rfl
    cases huses
  refine blockPipeline_keepsInv hi (fun s _ => ?_) fun _ _ _ => heos
  simp [WorkerInv, workerDone, hkeys, huses]

theorem computeBlock_keepsInv {i : Instr} {d : Direction} {k : KeySize} (hi : pipelineOf i = blockPipeline (computeBlock d))
    (huses : usesSchedule i = true) (hsize : keySizeOf i = k)
    (hreport : reportable i = if k = .k128 then [.eos] else [.fail .ise]) (hkeys : ∀ k, i ≠ .keySched k) :
    KeepsInv i .oneshot := by
  refine blockPipeline_keepsInv hi (fun s hfixed => ?_) fun s hfixed hvalid => ?_
  · rw [computeBlock_eq]
    split
    · next hvalid => simp [WorkerInv, workerDone, hkeys, hvalid]
    · next hempty =>
      have hne : k ≠ .k128 := hsize ▸ hfixed.size_of_empty huses hempty
      simp [WorkerInv, workerDone, workerReportable, hreport, hne]
  · rw [hreport, if_pos (hsize ▸ hfixed.size_of_valid (hvalid huses))]
    exact List.mem_singleton_self _

theorem keySched_keepsInv (k : KeySize) : KeepsInv (.keySched k) .oneshot where
  receive := by
    intro x s _ _ hfill
    simp [unitOf, pipelineOf, keysPipeline] at hfill
  inner := by
    intro s t hfixed _ h
    obtain ⟨-, rfl⟩ : s.one.ost = .compute ∧ computeKeySched s = t := by
      simpa [unitOf, pipelineOf, keysPipeline] using h
    rw [computeKeySched_eq]
    obtain hempty | hvalid := hfixed.rkn_cases
    · simp [WorkerInv, workerDone, workerReportable, reportable, hempty]
    · simp [WorkerInv, workerDone, hvalid]
  sent_data := by
    intro b s hfixed hinv hoffer
    have hst : s.one.ost = .emit := by
      cases hst : s.one.ost <;> simp [unitOf, pipelineOf, keysPipeline, keysOffer, hst] at hoffer ⊢
    simp only [WorkerInv, hst] at hinv
    obtain ⟨hoj, hoi, hvalid⟩ := hinv
    replace hoi := hoi k rfl
    replace hvalid := hvalid rfl
    simp only [unitOf, pipelineOf, keysPipeline_sent, keysSent_of_emit hst hvalid hoi]
    by_cases hlast : s.one.oj = 15
    · by_cases hend : s.one.oi = 10
      · simp [hlast, hend, WorkerInv, workerDone, workerReportable, reportable]
      · simp only [hlast, hend, if_true, if_false, WorkerInv, workerDone]
        exact ⟨⟨by decide, fun _ _ => by bv_omega, fun _ => hvalid⟩, by simp⟩
    · simp only [hlast, if_false, WorkerInv, workerDone, hst]
      exact ⟨⟨by bv_omega, fun _ _ => hoi, fun _ => hvalid⟩, by simp⟩
  sent_term := by
    intro t s hoffer
    have hst : s.one.ost = .term t := by
      cases hst : s.one.ost <;> simp_all [unitOf, pipelineOf, keysPipeline, keysOffer]
    simp [unitOf, pipelineOf, keysSent_of_term hst, WorkerInv]

theorem unitOf_keepsInv {i : Instr} {w : Worker} (hw : w ∈ workersOf i) : KeepsInv i w := by
  cases w with
  | pad => exact pad_keepsInv hw
  | engine => exact engine_keepsInv hw
  | unpad => exact unpad_keepsInv hw
  | oneshot =>
    cases i with
    | subBytes | invSubBytes | shiftRows | invShiftRows | mixColumns | invMixColumns | addRoundKey =>
      exact primitive_keepsInv (y := fun x k => applyPrimitive _ x k) rfl rfl (by simp [reportable])
    | blockEnc k | blockDec k => exact computeBlock_keepsInv rfl rfl rfl rfl nofun
    | keySched k => exact keySched_keepsInv k
    | ecbEnc | ecbDec | cbcEnc | cbcDec | ecbEncPad | ecbDecUnpad | cbcEncPad | cbcDecUnpad | pad | unpad =>
      simp [workersOf] at hw

/-! ### Every step of the core keeps the invariant -/

theorem apart_of_mem {i : Instr} {u w : Worker} (hu : u ∈ workersOf i) (hw : w ∈ workersOf i) (hne : u ≠ w) :
    Apart u w := by
  obtain ⟨v, h⟩ | h | h := workersOf_cases i
  · simp only [h, List.mem_singleton] at hu hw
    exact absurd (hu.trans hw.symm) hne
  · obtain ⟨-, -, hapart⟩ := pair_apart h
    simp only [h, List.mem_cons, List.not_mem_nil, or_false] at hu hw
    obtain ⟨rfl | rfl, rfl | rfl⟩ := And.intro hu hw
    exacts [absurd rfl hne, hapart, hapart.symm, absurd rfl hne]
  · obtain ⟨-, -, hapart⟩ := pair_apart h
    simp only [h, List.mem_cons, List.not_mem_nil, or_false] at hu hw
    obtain ⟨rfl | rfl, rfl | rfl⟩ := And.intro hu hw
    exacts [absurd rfl hne, hapart, hapart.symm, absurd rfl hne]

theorem RunStatic.congr {i : Instr} {s t : State} (h : RunStatic i s) (hlatch : t.latch = s.latch)
    (hsched : t.sched = s.sched) : RunStatic i t :=
  ⟨by rw [hlatch]; exact h.latched, by rw [hlatch]; exact h.blockSize, by rw [hsched]; exact h.keyCount,
    by rw [hsched, hlatch]; exact h.keys⟩

theorem WorkerInv.congr {i : Instr} {w : Worker} {s t : State} (h : WorkerInv i w s) (hview : SameView w s t) :
    WorkerInv i w t := by
  cases w with
  | oneshot => simpa only [WorkerInv, hview.one rfl, hview.sched] using h
  | pad => simpa only [WorkerInv, hview.pad rfl, hview.latch] using h
  | engine => simpa only [WorkerInv, hview.eng rfl] using h
  | unpad => simpa only [WorkerInv, hview.unp rfl, hview.latch] using h

theorem workerIdle_of_other {v w : Worker} {s t : State} (h : WritesOnly v s t) (hne : v ≠ w) :
    workerIdle w t = workerIdle w s := by
  cases w with
  | oneshot => simp only [workerIdle, h.one hne]
  | pad => simp only [workerIdle, h.pad hne]
  | engine => simp only [workerIdle, h.eng hne]
  | unpad => simp only [workerIdle, h.unp hne]

theorem workerDone_of_other {v w : Worker} {s t : State} (h : WritesOnly v s t) (hne : v ≠ w) :
    workerDone w t = workerDone w s := by
  cases w with
  | oneshot => simp only [workerDone, h.one hne]
  | pad => simp only [workerDone, h.pad hne]
  | engine => simp only [workerDone, h.eng hne]
  | unpad => simp only [workerDone, h.unp hne]

section Act
variable {i : Instr} {v : Worker} {s t : State}

/-- A worker of the command acts, and its own part of the invariant holds after it. -/
theorem CoreInv.act (h : CoreInv i s) (hv : v ∈ workersOf i) (hwrites : WritesOnly v s t) (hinv : WorkerInv i v t) :
    CoreInv i t where
  fixed := h.fixed.congr hwrites.latch hwrites.sched
  working w hw := by
    by_cases hvw : v = w
    · exact hvw ▸ hinv
    · exact (h.working w hw).congr (hwrites.sameView (apart_of_mem hv hw hvw))
  others w hw := (workerIdle_of_other hwrites fun heq => hw (by rw [← heq]; exact hv)).trans (h.others w hw)

theorem CoreInv.withHost (h : CoreInv i s) (top : Top) (env : Env) (edges : Nat) : CoreInv i (withHost top env edges s) where
  fixed := h.fixed.congr rfl rfl
  working w hw := (h.working w hw).congr (sameView_withHost ..)
  others := h.others

/-- A worker that is not done after it acts leaves the command unfinished. -/
theorem Unfinished.act (h : Unfinished i s) (hwrites : WritesOnly v s t)
    (hdone : (workersOf i).getLast? = some v → workerDone v t = false) : Unfinished i t := by
  intro w hw
  by_cases hvw : v = w
  · subst hvw; exact hdone hw
  · exact (workerDone_of_other hwrites hvw).trans (h w hw)

theorem Unfinished.withHost (h : Unfinished i s) (top : Top) (env : Env) (edges : Nat) :
    Unfinished i (withHost top env edges s) :=
  fun w hw => (sameView_withHost w top env edges s).workerDone_eq.trans (h w hw)

end Act

/-! #### What passes between the workers -/

/-- The host ends a stream with `End` or `Fail(TE)` (R113). -/
theorem arrivingItem_terminal {s : State} {t : Terminal} (h : arrivingItem s = some (.term t)) :
    t ∈ [.eos, .fail .te] := by
  have hinput : ∀ f, inputTerminal f ∈ [.eos, .fail .te] := by decide
  rw [arrivingItem_eq] at h
  split at h
  · cases h
  · cases h
  · obtain rfl : inputTerminal _ = t := by simpa using h
    exact hinput _
  · split at h
    · obtain rfl : inputTerminal _ = t := by simpa using h
      exact hinput _
    · simp at h

theorem passable_of_arriving {i : Instr} {w : Worker} {s : State} {x : Item} (hw : (workersOf i).head? = some w)
    (hfill : workerFilling w s = true) (hx : arrivingItem s = some x) : Passable i w x := by
  rintro t rfl
  have ht := arrivingItem_terminal hx
  cases w with
  | oneshot => cases hfill
  | pad => exact ht
  | engine => simp_all [workerReportable]; tauto
  | unpad => cases i <;> simp_all [workersOf, workerReportable, reportable]; tauto

/-- The downstream worker can report what the upstream one reports. -/
theorem workerReportable_mono {i : Instr} {u d : Worker} (hw : workersOf i = [u, d]) :
    workerReportable i u ⊆ workerReportable i d := by
  cases i <;> cases hw
  case ecbEncPad | cbcEncPad => simp [workerReportable]
  case ecbDecUnpad | cbcDecUnpad =>
    intro t
    simp only [workerReportable, reportable, keySizeOf, List.mem_append, List.mem_cons, List.not_mem_nil, or_false]
    tauto

theorem passable_of_offer {i : Instr} {u d : Worker} {s : State} {x : Item} (hw : workersOf i = [u, d])
    (hinv : WorkerInv i u s) (hx : (unitOf i u).offer s = some x) : Passable i d x := by
  rintro t rfl
  obtain ⟨hu, -, -⟩ := pair_apart hw
  exact workerReportable_mono hw (hinv.reportable ((unitOf_runBy hu).offer_term.mp hx))

/-! #### The step -/

/-- What a running command keeps until its terminal is taken. -/
def RunOrDone (i : Instr) (s : State) : Prop := CoreInv i s ∧ (Unfinished i s ∨ s.top = .idle)

theorem KeepsInv.sent {i : Instr} {w : Worker} (h : KeepsInv i w) {s : State} {x : Item} (hfixed : RunStatic i s)
    (hinv : WorkerInv i w s) (hx : (unitOf i w).offer s = some x) : WorkerInv i w ((unitOf i w).sent s) := by
  cases x with
  | data b => exact (h.sent_data hfixed hinv hx).1
  | term t => exact h.sent_term hx

theorem coreStep_runOrDone {i : Instr} {s t : State} (hstep : CoreStep i s t) (h : RunOrDone i s) : RunOrDone i t := by
  obtain ⟨hinv, hend⟩ := h
  cases hstep with
  | @inner w _ hw ht =>
    have hwrites := (unitOf_runBy hw).inner_writes ht
    obtain ⟨hafter, hdone⟩ := (unitOf_keepsInv hw).inner hinv.fixed (hinv.working w hw) ht
    exact ⟨hinv.act hw hwrites hafter, hend.imp (·.act hwrites fun _ => hdone) hwrites.top.trans⟩
  | @transfer u d x hw hoffer hfill =>
    obtain ⟨hu, hd, hapart⟩ := pair_apart hw
    have hwritesU := (unitOf_runBy hu).sent_writes s
    have hwritesD := (unitOf_runBy hd).receive_writes x ((unitOf i u).sent s)
    have hsent := hinv.act hu hwritesU ((unitOf_keepsInv hu).sent hinv.fixed (hinv.working u hu) hoffer)
    obtain ⟨hafter, hdone⟩ := (unitOf_keepsInv hd).receive hsent.fixed (hsent.working d hd) (filling_after_sent hw hfill)
      (passable_of_offer hw (hinv.working u hu) hoffer)
    refine ⟨hsent.act hd hwritesD hafter, hend.imp (fun hun => ?_) (hwritesD.top.trans <| hwritesU.top.trans ·)⟩
    have hlast : (workersOf i).getLast? = some d := by rw [hw]; rfl
    exact (hun.act hwritesU fun h => absurd (Option.some.inj (h.symm.trans hlast)) hapart.1).act hwritesD fun _ => hdone
  | @input w x hw hfill hx =>
    have hmem := first_mem hw
    have hrun := unitOf_runBy hmem
    have hwrites := hrun.receive_writes x s
    obtain ⟨hafter, hdone⟩ := (unitOf_keepsInv hmem).receive hinv.fixed (hinv.working w hmem) hfill
      (passable_of_arriving hw ((hrun.filling_eq s).symm.trans hfill) hx)
    exact ⟨(hinv.act hmem hwrites hafter).withHost _ _ _,
      hend.imp (fun hun => (hun.act hwrites fun _ => hdone).withHost _ _ _) hwrites.top.trans⟩
  | @output w x hw hoffer =>
    have hmem := last_mem hw
    have hwrites := (unitOf_runBy hmem).sent_writes s
    have hkeeps := unitOf_keepsInv hmem
    rw [hostTook_eq_withHost]
    refine ⟨(hinv.act hmem hwrites (hkeeps.sent hinv.fixed (hinv.working w hmem) hoffer)).withHost _ _ _, ?_⟩
    cases x with
    | term t => exact .inr rfl
    | data b =>
      obtain ⟨-, hdone⟩ := hkeeps.sent_data hinv.fixed (hinv.working w hmem) hoffer
      exact hend.imp (fun hun => (hun.act hwrites fun _ => hdone).withHost _ _ _) hwrites.top.trans

theorem edge_runOrDone {i : Instr} {s : State} (h : RunOrDone i s) : RunOrDone i ((pipelineOf i).edge s) :=
  edge_of_coreSteps (R := fun s t => RunOrDone i s → RunOrDone i t) (fun _ => id) (fun hst htu => htu ∘ hst)
    coreStep_runOrDone s h

/-! ### Every step of the machine keeps the invariant -/

/-- The round-key store at acceptance: a schedule of the latched key, or none (R108, R186). -/
theorem schedule_at_acceptance (i : Instr) (key : Block) (r : ScheduleRegs) :
    let e := if usesSchedule i then keyExpand (keySizeOf i) key r else { r with rkn := 0 }
    (e.rkn = if usesSchedule i = true ∧ keySizeOf i = .k128 then 11 else 0) ∧ (e.rkn = 11 → e.rk = scheduleOf key) := by
  intro e
  by_cases huses : usesSchedule i = true
  · by_cases hsize : keySizeOf i = .k128
    · have he : e = keyExpand .k128 key r := by simp [e, huses, hsize]
      rw [he]
      exact ⟨by simp [huses, hsize], fun _ => keyExpand_rk key r⟩
    · have he : e = { r with rkn := 0 } := by simp [e, huses, keyExpand_of_ne_k128 hsize]
      simp [he, hsize]
  · have he : e = { r with rkn := 0 } := by simp [e, huses]
    simp [he, huses]

/-- Acceptance starts exactly the workers of the command, with the schedule of the latched key (R108). -/
theorem runInv_acceptCommand {i : Instr} {s : State} (hsize : blockSizeOk i s.env.job.blksz = true) :
    RunInv i (acceptCommand i s) := by
  obtain ⟨hcount, hkeys⟩ := schedule_at_acceptance i (blockOfPort s.env.job.key) s.sched
  rw [runInv_iff, acceptCommand_eq]
  refine ⟨⟨⟨rfl, hsize, hcount, hkeys⟩, fun w hw => ?_, fun w hw => ?_⟩, fun w hlast => ?_⟩
  · cases w with
    | oneshot => simp [WorkerInv, hw]
    | pad => simpa [WorkerInv, hw] using bsz_pos_of_blockSizeOk hsize (.inl hw)
    | engine => simp [WorkerInv, hw]
    | unpad => simp [WorkerInv, hw, BitVec.le_def]
  · cases w <;> simp [workerIdle, hw]
  · have hw := last_mem hlast
    cases w <;> simp [workerDone, hw]

theorem inv_of_idle {s : State} (hcount : s.sched.rkn = 0 ∨ s.sched.rkn = 11) (hidle : s.top = .idle) : Inv s :=
  ⟨hcount, fun hrun => by simp [hidle] at hrun⟩

theorem inv_of_runInv {i : Instr} {s : State} (h : RunInv i s) : Inv s :=
  ⟨(runInv_iff.mp h).1.fixed.rkn_cases, fun _ => ⟨i, h⟩⟩

theorem runInv_withHost {i : Instr} {s : State} (h : RunInv i s) (top : Top) (env : Env) (edges : Nat) :
    RunInv i (withHost top env edges s) := by
  obtain ⟨hinv, hun⟩ := runInv_iff.mp h
  exact runInv_iff.mpr ⟨hinv.withHost .., hun.withHost top env edges⟩

/-- A running command keeps its invariant over an edge, unless it ends there. -/
theorem runInv_edge {i : Instr} {s : State} (h : RunInv i s) :
    CoreInv i ((pipelineOf i).edge s) ∧ (RunInv i ((pipelineOf i).edge s) ∨ ((pipelineOf i).edge s).top = .idle) := by
  obtain ⟨hinv, hun⟩ := runInv_iff.mp h
  obtain ⟨hinv', hend⟩ := edge_runOrDone ⟨hinv, .inl hun⟩
  exact ⟨hinv', hend.imp_left fun hun' => runInv_iff.mpr ⟨hinv', hun'⟩⟩

/-- The command of a running core is the one in `CMDR`. -/
theorem eq_of_runInv_of_decode {i j : Instr} {s : State} (h : RunInv i s) (hdec : decode s.latch.cmdr = some j) : i = j := by
  rw [h.latched, decode_encode] at hdec
  exact Option.some.inj hdec

/-- Settles O48: reset, abort and a quiet edge leave an idle core, acceptance starts a run that meets the invariant, and
the steps of the core keep it worker by worker. -/
theorem everyStepKeepsTheInvariant : Obligations.EveryStepKeepsTheInvariant := by
  unfold Obligations.EveryStepKeepsTheInvariant
  intro s t hinv h
  obtain ⟨-, rfl⟩ | ⟨-, -, rfl⟩ | ⟨-, -, hidle, -, rfl⟩ | ⟨-, -, -, -, i, -, hsize, rfl⟩ | ⟨-, -, hrun, j, hdec, -, rfl⟩ :=
    step_next_cases h
  · exact inv_of_idle (.inl rfl) rfl
  · have hsched : (abortEdge s).sched = s.sched := by unfold abortEdge; split <;> rfl
    exact inv_of_idle (by rw [closeEdge_sched, hsched]; exact hinv.keyCount) (abortEdge_top s)
  · exact inv_of_idle hinv.keyCount hidle
  · rw [closeEdge_eq_withHost]
    exact inv_of_runInv (runInv_withHost (runInv_acceptCommand hsize) ..)
  · obtain ⟨i, hi⟩ := hinv.running hrun
    obtain rfl := eq_of_runInv_of_decode hi hdec
    obtain ⟨hcore, hnext | hidle⟩ := runInv_edge hi
    · rw [closeEdge_eq_withHost]
      exact inv_of_runInv (runInv_withHost hnext ..)
    · exact inv_of_idle hcore.fixed.rkn_cases hidle

/-! ### What follows from the invariant -/

/-- An idle core never faults: a command offered to it is accepted or refused. -/
theorem step_idle_not_fault {s : State} (hidle : s.top = .idle) (f : Fault) : step s ≠ .fault f := by
  cases hrst : (inPorts s).rst
  case true => simp [step_of_rst hrst]
  cases habt : (inPorts s).abort
  case true => simp [step_of_abort hrst habt]
  cases hvalid : (inPorts s).cmdValid
  case false => simp [step_of_quiet hrst habt hidle hvalid]
  by_cases hlegal : ∃ i, decode (inPorts s).cmd = some i ∧ blockSizeOk i (inPorts s).blksz = true
  · obtain ⟨i, hdec, hsize⟩ := hlegal
    simp [step_of_legal hidle hrst habt hvalid hdec hsize]
  · obtain h | h := step_of_illegal hidle hrst habt hvalid hlegal <;> simp [h]

theorem step_of_runInv {i : Instr} {s : State} (h : RunInv i s) (hrun : s.top = .run) (hrst : (inPorts s).rst = false)
    (habt : (inPorts s).abort = false) : step s = .next (closeEdge ((pipelineOf i).edge s)) := by
  have hdec : decode s.latch.cmdr = some i := by rw [h.latched, decode_encode]
  rw [step_of_running_command hrst habt hrun hdec, exec_edge hrun h.bounds]
  rfl

theorem step_running_next {i : Instr} {s : State} (h : RunInv i s) (hrun : s.top = .run) : ∃ t, step s = .next t := by
  cases hrst : (inPorts s).rst
  case true => exact ⟨_, step_of_rst hrst⟩
  cases habt : (inPorts s).abort
  case true => exact ⟨_, step_of_abort hrst habt⟩
  exact ⟨_, step_of_runInv h hrun hrst habt⟩

/-- Settles O49: an idle core refuses at worst, and a running one finds its command and its counters in order. -/
theorem noStepFaultsUnderTheInvariant : Obligations.NoStepFaultsUnderTheInvariant := by
  unfold Obligations.NoStepFaultsUnderTheInvariant
  intro s hinv
  have hnext : s.top = .run → ∃ t, step s = .next t := fun hrun => by
    obtain ⟨i, hi⟩ := hinv.running hrun
    exact step_running_next hi hrun
  refine ⟨fun f => ?_, hnext⟩
  cases htop : s.top with
  | idle => exact step_idle_not_fault htop f
  | run =>
    obtain ⟨t, ht⟩ := hnext htop
    simp [ht]

/-- What the last worker can report, the command can. -/
theorem workerReportable_last {i : Instr} {w : Worker} (hw : (workersOf i).getLast? = some w) :
    workerReportable i w ⊆ reportable i := by
  cases i <;> cases hw <;> simp [workerReportable, reportable, keySizeOf]

/-- Settles O50: the terminal taken is the one the last worker offers. -/
theorem onlyReportableTerminalsAreDelivered : Obligations.OnlyReportableTerminalsAreDelivered := by
  unfold Obligations.OnlyReportableTerminalsAreDelivered
  intro s t j x hinv hrun hdec h htaken
  obtain ⟨i, hi⟩ := hinv.running hrun
  obtain rfl := eq_of_runInv_of_decode hi hdec
  cases hrst : (inPorts s).rst
  case true => simp [(step_of_rst_or_abort h (.inl hrst)).2.1] at htaken
  cases habt : (inPorts s).abort
  case true => simp [(step_of_rst_or_abort h (.inr habt)).2.1] at htaken
  obtain rfl : closeEdge ((pipelineOf i).edge s) = t := by
    simpa [step_of_runInv hi hrun hrst habt] using h
  have hout : (pipelineOf i).outputAt s = some (.term x) := by
    have hedge := Pipeline.edge_taken (pipelineOf_writesWorkersOnly i) s
    simp only [closeEdge_env] at htaken
    rw [htaken] at hedge
    cases hy : (pipelineOf i).outputAt s with
    | none => simp [hy] at hedge
    | some y => simpa [hy, eq_comm] using hedge
  obtain ⟨w, hw, ho, -⟩ := pipelineOf_last i
  have hoffer := offer_of_outputAt hout
  rw [ho] at hoffer
  have hmem := last_mem hw
  exact workerReportable_last hw
    ((workerInv_of_runInv hi hmem).reportable ((unitOf_runBy hmem).offer_term.mp hoffer))

end Sys2Proof.Machine
end

section
/-! What the edge of a running command does not look at: the command and operand wires (70_reset_and_hazards.md R398,
20_memory.md R77) and, in ECB, the feedback register (43_chaining.md R234). -/

namespace Sys2Proof.Machine

open Sys2Proof.Safety

/-! ### A change of the state that the parts of an edge pass through -/

/-- The pipeline sees no difference between a state and the changed one, and acts alike on both. -/
structure Pipeline.Commutes (p : Pipeline) (change : State → State) : Prop where
  filling : ∀ s, p.filling (change s) = p.filling s
  offer : ∀ s, p.offer (change s) = p.offer s
  receive : ∀ x s, p.receive x (change s) = change (p.receive x s)
  sent : ∀ s, p.sent (change s) = change (p.sent s)
  inner : ∀ s, p.inner (change s) = (p.inner s).map change

/-- The host sees no difference between a state and the changed one, and takes its parts alike in both. -/
structure HostCommutes (change : State → State) : Prop where
  move : ∀ s, currentMove (change s) = currentMove s
  arriving : ∀ s, arrivingItem (change s) = arrivingItem s
  sent : ∀ x s, hostSent x (change s) = change (hostSent x s)
  took : ∀ x s, hostTook x (change s) = change (hostTook x s)

section Commutes
variable {p : Pipeline} {change : State → State}

theorem Pipeline.Commutes.outputAt (hp : p.Commutes change) (hhost : HostCommutes change) (s : State) :
    p.outputAt (change s) = p.outputAt s := by
  have hready : (inPorts (change s)).outReady = (inPorts s).outReady := congrArg Move.outReady (hhost.move s)
  have hterm : (inPorts (change s)).outTermReady = (inPorts s).outTermReady :=
    congrArg Move.outTermReady (hhost.move s)
  simp only [Pipeline.outputAt, hp.offer, hready, hterm]

theorem Pipeline.Commutes.edge (hp : p.Commutes change) (hhost : HostCommutes change) (s : State) :
    p.edge (change s) = change (p.edge s) := by
  have hout := hp.outputAt hhost s
  have hin : p.inputAt (change s) = p.inputAt s := by simp only [Pipeline.inputAt, hp.filling, hhost.arriving]
  have hinner : p.innerAt (change s) = (p.innerAt s).map change := by
    simp only [Pipeline.innerAt, hhost.move, hp.inner]
    split <;> rfl
  have hstart : (p.innerAt (change s)).getD (change s) = change ((p.innerAt s).getD s) := by
    rw [hinner]; cases p.innerAt s <;> rfl
  have hbefore : p.beforeOutput (change s) = change (p.beforeOutput s) := by
    simp only [Pipeline.beforeOutput, hin, hstart]
    cases p.inputAt s with
    | none => rfl
    | some x => simp only [hp.receive, hhost.sent]
  cases hy : p.outputAt s with
  | none => rw [Pipeline.edge_of_outputAt_none (hout.trans hy), Pipeline.edge_of_outputAt_none hy, hbefore]
  | some y =>
    rw [Pipeline.edge_of_outputAt_some (hout.trans hy), Pipeline.edge_of_outputAt_some hy, hbefore, hp.sent,
      hhost.took]

theorem Pipeline.Commutes.link {up down : Pipeline} (hup : up.Commutes change) (hdown : down.Commutes change) :
    (up.link down).Commutes change where
  filling := hup.filling
  offer := hdown.offer
  receive := hup.receive
  sent := hdown.sent
  inner s := by
    have htransfer : up.transfer down (change s) = (up.transfer down s).map change := by
      simp only [Pipeline.transfer, hdown.filling, hup.offer, hup.sent, hdown.receive]
      split
      · cases up.offer s <;> rfl
      · rfl
    simp only [Pipeline.link, hup.inner, hdown.inner, htransfer, Option.map_or]

theorem pipelineOf_commutes {i : Instr} (h : ∀ w ∈ workersOf i, (unitOf i w).Commutes change) :
    (pipelineOf i).Commutes change := by
  obtain ⟨w, hw⟩ | hw | hw := workersOf_cases i
  · rw [pipelineOf_of_single hw]
    exact h w (by simp [hw])
  · rw [pipelineOf_of_pair hw]
    exact (h _ (by simp [hw])).link (h _ (by simp [hw]))
  · rw [pipelineOf_of_pair hw]
    exact (h _ (by simp [hw])).link (h _ (by simp [hw]))

/-- The meaning of a running command passes the change through. -/
theorem exec_commutes {i : Instr} {s : State} (hrun : s.top = .run) (hp : (pipelineOf i).Commutes change)
    (hhost : HostCommutes change) (htop : (change s).top = s.top)
    (hbounds : (pipelineOf i).inBounds (change s) = (pipelineOf i).inBounds s) :
    exec i (change s) = match exec i s with
      | .next t => .next (change t)
      | .fault f => .fault f
      | .refused r => .refused r := by
  rw [exec_run (htop.trans hrun), exec_run hrun, hbounds, hp.edge hhost]
  split <;> rfl

end Commutes

/-! ### The command and operand wires (R398) -/

/-- Other values on the command and operand wires, and another offer after the present one. -/
def rewire (job : Job) (jobs : List Job) (valid : Bool) (s : State) : State :=
  { s with env := { s.env with job := job, jobs := jobs, cmdValid := valid } }

section Rewire
variable (job : Job) (jobs : List Job) (valid : Bool)

theorem rewire_eq_withHost (s : State) :
    rewire job jobs valid s = withHost s.top { s.env with job := job, jobs := jobs, cmdValid := valid } s.edges s := rfl

theorem rewire_hostCommutes : HostCommutes (rewire job jobs valid) where
  move _ := rfl
  arriving _ := rfl
  sent _ _ := rfl
  took x _ := by cases x <;> rfl

theorem Pipeline.RunBy.commutes_rewire {p : Pipeline} {w : Worker} (hp : p.RunBy w) :
    p.Commutes (rewire job jobs valid) where
  filling s := hp.filling_view (sameView_withHost ..)
  offer s := hp.offer_view (sameView_withHost ..)
  receive x s := by
    have hw := hp.receive_writes x s
    rw [rewire_eq_withHost, rewire_eq_withHost, hp.receive_withHost, hw.top, hw.env, hw.edges]
  sent s := by
    have hw := hp.sent_writes s
    rw [rewire_eq_withHost, rewire_eq_withHost, hp.sent_withHost, hw.top, hw.env, hw.edges]
  inner s := by
    rw [rewire_eq_withHost, hp.inner_withHost]
    refine Option.map_congr fun t ht => ?_
    have hw := hp.inner_writes ht
    rw [rewire_eq_withHost, hw.top, hw.env, hw.edges]

end Rewire

/-- Settles O42: no worker and no part of the host's moves reads the command and operand wires. -/
theorem operandWiresAreNotReadWhileRunning : Obligations.OperandWiresAreNotReadWhileRunning := by
  unfold Obligations.OperandWiresAreNotReadWhileRunning
  intro i s job jobs valid hrun
  exact exec_commutes hrun (pipelineOf_commutes fun w hw => (unitOf_runBy hw).commutes_rewire job jobs valid)
    (rewire_hostCommutes job jobs valid) rfl (by cases i <;> rfl)

/-! ### The feedback register in ECB (R234) -/

/-- Another value in `FB`. -/
def setFeedback (fb : Block) (s : State) : State := { s with eng.fb := fb }

section Feedback
variable (fb : Block)

theorem setFeedback_hostCommutes : HostCommutes (setFeedback fb) where
  move _ := rfl
  arriving _ := rfl
  sent _ _ := rfl
  took x _ := by cases x <;> rfl

theorem setFeedback_writesOnly (s : State) : WritesOnly .engine s (setFeedback fb s) := writesOnly_engine s s.core _

/-- A worker apart from ENGINE acts alike before and after ENGINE's registers change. -/
theorem setFeedback_comm {w : Worker} {s t t' : State} (hapart : Apart w .engine) (h : WritesOnly w s t)
    (h' : WritesOnly w (setFeedback fb s) t') (hview : SameView w t t') : t' = setFeedback fb t := by
  have hengine : SameView .engine (setFeedback fb s) (setFeedback fb t) :=
    ⟨h.latch, h.sched, fun _ => h.core fun hw => hapart.2 ⟨hw, .inr rfl⟩, nofun,
      fun _ => by simp only [setFeedback, h.eng hapart.1], nofun, nofun⟩
  exact (h.diamond hapart (setFeedback_writesOnly fb s) (setFeedback_writesOnly fb t) h' hview hengine).symm

theorem Pipeline.RunBy.commutes_setFeedback {p : Pipeline} {w : Worker} (hp : p.RunBy w) (hapart : Apart w .engine)
    (hinner : ∀ s, p.inner s = none) : p.Commutes (setFeedback fb) where
  filling s := hp.filling_view ((setFeedback_writesOnly fb s).sameView hapart.symm)
  offer s := hp.offer_view ((setFeedback_writesOnly fb s).sameView hapart.symm)
  receive x s := setFeedback_comm fb hapart (hp.receive_writes x s) (hp.receive_writes x _)
    (hp.receive_view x ((setFeedback_writesOnly fb s).sameView hapart.symm))
  sent s := setFeedback_comm fb hapart (hp.sent_writes s) (hp.sent_writes _)
    (hp.sent_view ((setFeedback_writesOnly fb s).sameView hapart.symm))
  inner s := by rw [hinner, hinner]; rfl

/-- ENGINE in an ECB mode moves `FB` along without looking at it. -/
theorem ecbEngine_commutes_setFeedback {m : ChainMode} (hm : m = .ecbEnc ∨ m = .ecbDec) :
    (enginePipeline (modeStep m)).Commutes (setFeedback fb) where
  filling _ := rfl
  offer _ := rfl
  receive x s := by
    rcases x with b | (_ | e)
    · simp only [enginePipeline, engineReceive, setFeedback]; split <;> rfl
    · simp only [enginePipeline, engineReceive, setFeedback]; split <;> rfl
    · rfl
  sent s := by
    simp only [enginePipeline, engineSent, setFeedback]
    split
    · split <;> rfl
    all_goals rfl
  inner s := by
    have hxform : engineXform (modeStep m) (setFeedback fb s) = setFeedback fb (engineXform (modeStep m) s) := by
      rw [engineXform_modeStep, engineXform_modeStep]
      by_cases hvalid : s.sched.rkn = 11
      · rw [if_pos (by exact hvalid), if_pos hvalid]
        obtain rfl | rfl := hm <;> rfl
      · rw [if_neg (by exact hvalid), if_neg hvalid]
        rfl
    simp only [enginePipeline, engineInner, hxform]
    by_cases hst : s.eng.est = .xform
    · rw [if_pos (by exact hst), if_pos hst]; rfl
    · rw [if_neg (by exact hst), if_neg hst]; rfl

theorem ecb_commutes_setFeedback {i : Instr} (hone : .oneshot ∉ workersOf i) (hm : modeOf i = .ecbEnc ∨ modeOf i = .ecbDec) :
    (pipelineOf i).Commutes (setFeedback fb) := by
  refine pipelineOf_commutes fun w hw => ?_
  cases w with
  | oneshot => exact absurd hw hone
  | pad => exact padPipeline_runBy.commutes_setFeedback fb pad_apart_engine fun _ => rfl
  | engine => exact ecbEngine_commutes_setFeedback fb hm
  | unpad => exact unpadPipeline_runBy.commutes_setFeedback fb engine_apart_unpad.symm fun _ => rfl

end Feedback

/-- Settles O44: the block step of an ECB mode neither reads nor writes `FB`, and no other part of an edge does. -/
theorem ecbIgnoresTheFeedbackRegister : Obligations.EcbIgnoresTheFeedbackRegister := by
  unfold Obligations.EcbIgnoresTheFeedbackRegister
  intro i k s fb hrun hi
  have hecb : .oneshot ∉ workersOf i ∧ (modeOf i = .ecbEnc ∨ modeOf i = .ecbDec) := by
    simp only [List.mem_cons, List.not_mem_nil, or_false] at hi
    obtain rfl | rfl | rfl | rfl := hi <;> simp [workersOf, modeOf]
  exact exec_commutes hrun (ecb_commutes_setFeedback fb hecb.1 hecb.2) (setFeedback_hostCommutes fb) rfl
    (by cases i <;> rfl)

end Sys2Proof.Machine
end

section
/-! The stream functions: whole blocks one after another, and what undoes what (43_chaining.md R243, R244; 44_padding.md
R264, R273, R274). -/

namespace Sys2Proof.Machine

open Sys2Proof.Safety

/-! ### Byte sequences in blocks of 16 -/

/-- The bytes of the blocks `f 0` to `f (q - 1)`. -/
def joinBlocks (f : Nat → Block) (q : Nat) : List Byte := (List.range q).flatMap fun k => (f k).toList

@[simp] theorem joinBlocks_zero (f : Nat → Block) : joinBlocks f 0 = [] := rfl

theorem joinBlocks_succ (f : Nat → Block) (q : Nat) :
    joinBlocks f (q + 1) = (f 0).toList ++ joinBlocks (fun k => f (k + 1)) q := by
  simp [joinBlocks, List.range_succ_eq_map, List.flatMap_map]

@[simp] theorem length_joinBlocks (f : Nat → Block) (q : Nat) : (joinBlocks f q).length = 16 * q := by
  simp [joinBlocks, List.length_flatMap, mul_comm]

@[simp] theorem blockOf_append_zero (x : Block) (xs : List Byte) : blockOf (x.toList ++ xs) 0 = x := by
  refine Vector.ext fun i hi => ?_
  simp [blockOf, List.getD_eq_getElem?_getD, List.getElem?_append]

@[simp] theorem blockOf_append_succ (x : Block) (xs : List Byte) (k : Nat) :
    blockOf (x.toList ++ xs) (k + 1) = blockOf xs k := by
  refine Vector.ext fun i hi => ?_
  have hge : ¬16 * (k + 1) + i < 16 := by omega
  have hsub : 16 * (k + 1) + i - 16 = 16 * k + i := by omega
  simp [blockOf, List.getD_eq_getElem?_getD, List.getElem?_append, hge, hsub]

/-- A sequence of whole blocks is empty, or a block and a sequence of whole blocks. -/
theorem wholeBlocks_induction {motive : List Byte → Prop} (nil : motive [])
    (block : ∀ (x : Block) (xs : List Byte), motive xs → motive (x.toList ++ xs)) (xs : List Byte)
    (hxs : 16 ∣ xs.length) : motive xs := by
  obtain ⟨q, hq⟩ := hxs
  induction q generalizing xs with
  | zero => rw [List.length_eq_zero_iff.mp hq]; exact nil
  | succ q ih =>
    have hlen : (xs.take 16).length = 16 := by simp; omega
    have hxs : (⟨(xs.take 16).toArray, by simpa using hlen⟩ : Block).toList ++ xs.drop 16 = xs :=
      List.take_append_drop 16 xs
    rw [← hxs]
    exact block _ _ (ih _ (by simp; omega))

/-! ### A chained stream, block by block (R243) -/

/-- A stream with the bytes `bs` in front of it. -/
def prependBytes (bs : List Byte) (r : Stream) : Stream := ⟨bs ++ r.bytes, r.last⟩

theorem items_prependBytes (bs : List Byte) (r : Stream) :
    (prependBytes bs r).items = bs.map .data ++ r.items := by
  simp [prependBytes, Stream.items]

section Chain
variable (m : ChainMode) (rk : RoundKeys) (fb : Block)

@[simp] theorem outBlock_append_zero (x : Block) (xs : List Byte) :
    outBlock m rk fb (x.toList ++ xs) 0 = blockStepOutput m rk x fb := by
  cases m <;> simp [outBlock, blockStepOutput, coreResult]

@[simp] theorem outBlock_append_succ (x : Block) (xs : List Byte) (k : Nat) :
    outBlock m rk fb (x.toList ++ xs) (k + 1) = outBlock m rk (blockStepFeedback m rk x fb) xs k := by
  induction k with
  | zero => cases m <;> simp [outBlock, blockStepFeedback]
  | succ k ih =>
    cases m with
    | cbcEnc => rw [outBlock, ih]; simp [outBlock]
    | ecbEnc | ecbDec | cbcDec => simp [outBlock]

theorem chainStream_valid (x : Stream) :
    chainStream m true rk fb x = ⟨joinBlocks (outBlock m rk fb x.bytes) (x.bytes.length / 16),
      match x.last with
      | .fail e => .fail e
      | .eos => if x.bytes.length % 16 = 0 then .eos else .fail .lce⟩ := by
  obtain ⟨xs, _ | e⟩ := x
  · by_cases hmod : xs.length % 16 = 0 <;> simp [chainStream, joinBlocks, hmod]
  · simp [chainStream, joinBlocks]

/-- The block step on the first block, then the rest with the feedback that it leaves. -/
theorem chainStream_block (x : Block) (xs : List Byte) (t : Terminal) :
    chainStream m true rk fb ⟨x.toList ++ xs, t⟩ =
      prependBytes (blockStepOutput m rk x fb).toList (chainStream m true rk (blockStepFeedback m rk x fb) ⟨xs, t⟩) := by
  have hdiv : (16 + xs.length) / 16 = xs.length / 16 + 1 := by omega
  have hmod : (16 + xs.length) % 16 = xs.length % 16 := by omega
  simp only [chainStream_valid, List.length_append, Vector.length_toList, hdiv, hmod, joinBlocks_succ,
    outBlock_append_zero, outBlock_append_succ]
  rfl

/-- Without a schedule the first whole block ends the stream (R235). -/
theorem chainStream_block_of_empty (x : Block) (xs : List Byte) (t : Terminal) :
    chainStream m false rk fb ⟨x.toList ++ xs, t⟩ = ⟨[], .fail .ise⟩ := by
  simp [chainStream]

section Short
variable (valid : Bool) {xs : List Byte} (hshort : xs.length < 16)
include hshort

theorem chainStream_fail_of_short (e : Err) : chainStream m valid rk fb ⟨xs, .fail e⟩ = ⟨[], .fail e⟩ := by
  have hdiv : xs.length / 16 = 0 := by omega
  simp [chainStream, hdiv, hshort]

theorem chainStream_eos_of_short :
    chainStream m valid rk fb ⟨xs, .eos⟩ = ⟨[], if xs = [] then .eos else .fail .lce⟩ := by
  have hdiv : xs.length / 16 = 0 := by omega
  have hmod : xs.length % 16 = 0 ↔ xs = [] := by rw [← List.length_eq_zero_iff]; omega
  by_cases hnil : xs = [] <;> simp [chainStream, hdiv, hshort, hmod, hnil]

end Short

theorem length_chainStream (xs : List Byte) :
    (chainStream m true rk fb ⟨xs, .eos⟩).bytes.length = 16 * (xs.length / 16) := by
  simp [chainStream_valid]

end Chain

/-! ### The chaining modes undo each other (R244) -/

@[simp] theorem xorBlock_xorBlock (x y : Block) : xorBlock (xorBlock x y) y = x := by
  refine Vector.ext fun i hi => ?_
  simp [xorBlock]

/-- The mode of opposite direction. -/
def inverseMode : ChainMode → ChainMode
  | .ecbEnc => .ecbDec
  | .ecbDec => .ecbEnc
  | .cbcEnc => .cbcDec
  | .cbcDec => .cbcEnc

/-- On the output block of an encrypting mode, the inverse mode gives the input block and the same next feedback. -/
theorem blockStep_inverseMode {m : ChainMode} (hm : encrypts m = true) (rk : RoundKeys) (x fb : Block) :
    blockStepOutput (inverseMode m) rk (blockStepOutput m rk x fb) fb = x ∧
      blockStepFeedback (inverseMode m) rk (blockStepOutput m rk x fb) fb = blockStepFeedback m rk x fb := by
  cases m with
  | ecbEnc | cbcEnc =>
    simp [inverseMode, blockStepOutput, blockStepFeedback, coreResult, decrypt_encrypt]
  | ecbDec | cbcDec => cases hm

theorem chainStream_nil (m : ChainMode) (rk : RoundKeys) (fb : Block) :
    chainStream m true rk fb ⟨[], .eos⟩ = ⟨[], .eos⟩ :=
  chainStream_eos_of_short m rk fb true (by simp)

theorem chainStream_inverseMode {m : ChainMode} (hm : encrypts m = true) (rk : RoundKeys) (fb : Block) (xs : List Byte)
    (hxs : 16 ∣ xs.length) :
    chainStream (inverseMode m) true rk fb (chainStream m true rk fb ⟨xs, .eos⟩) = ⟨xs, .eos⟩ := by
  refine wholeBlocks_induction (motive := fun xs => ∀ fb, chainStream (inverseMode m) true rk fb
    (chainStream m true rk fb ⟨xs, .eos⟩) = ⟨xs, .eos⟩) (fun fb => ?_) (fun x xs ih fb => ?_) xs hxs fb
  · rw [chainStream_nil, chainStream_nil]
  · obtain ⟨hout, hfb⟩ := blockStep_inverseMode hm rk x fb
    rw [chainStream_block, prependBytes, chainStream_block, hout, hfb, ih]
    rfl

theorem outBlock_ecbEnc (rk : RoundKeys) (iv : Block) (xs : List Byte) (k : Nat) :
    outBlock .ecbEnc rk iv xs k = encrypt rk (blockOf xs k) := by
  cases k <;> rfl

/-- Settles O53, block by block: each block step undoes that of the inverse mode. -/
theorem chainingModesInvert : Obligations.ChainingModesInvert := by
  unfold Obligations.ChainingModesInvert
  refine fun rk iv xs => ⟨fun hxs => ?_, fun m => length_chainStream m rk iv xs, fun j l h => ?_⟩
  · have hwhole := Nat.dvd_of_mod_eq_zero hxs
    exact ⟨chainStream_inverseMode (m := .cbcEnc) rfl rk iv xs hwhole,
      chainStream_inverseMode (m := .ecbEnc) rfl rk iv xs hwhole⟩
  · rw [outBlock_ecbEnc, outBlock_ecbEnc, h]

/-! ### Padding, block by block (R264, R273) -/

section Pad
variable {bsz : Nat} (hbsz : 0 < bsz) {block : List Byte} (hblock : block.length = bsz)
include hbsz hblock

/-- PAD passes a whole block on. -/
theorem padStream_block (xs : List Byte) (t : Terminal) :
    padStream bsz ⟨block ++ xs, t⟩ = prependBytes block (padStream bsz ⟨xs, t⟩) := by
  obtain _ | e := t
  · simp [padStream, prependBytes, hblock]
  · have hdiv : (bsz + xs.length) / bsz * bsz = bsz + xs.length / bsz * bsz := by
      rw [Nat.add_div_left _ hbsz, Nat.succ_mul, Nat.add_comm]
    simp [padStream, prependBytes, hblock, hdiv, List.take_append]

end Pad

theorem padStream_fail_of_short {bsz : Nat} {xs : List Byte} (h : xs.length < bsz) (e : Err) :
    padStream bsz ⟨xs, .fail e⟩ = ⟨[], .fail e⟩ := by
  simp [padStream, Nat.div_eq_of_lt h]

theorem padStream_eos_of_short {bsz : Nat} {xs : List Byte} (h : xs.length < bsz) :
    padStream bsz ⟨xs, .eos⟩ =
      ⟨xs ++ List.replicate (bsz - xs.length) (BitVec.ofNat 8 (bsz - xs.length)), .eos⟩ := by
  simp [padStream, Nat.mod_eq_of_lt h]

/-- `n` appended bytes of value `n` are valid padding. -/
theorem validPadding_append_replicate {bsz n : Nat} (hpos : 0 < n) (hle : n ≤ bsz) (hbsz : bsz ≤ 255) (xs : List Byte) :
    validPadding bsz (xs ++ List.replicate n (BitVec.ofNat 8 n)) = true ∧
      ((xs ++ List.replicate n (BitVec.ofNat 8 n)).getLastD 0).toNat = n := by
  have hlast : (xs ++ List.replicate n (BitVec.ofNat 8 n)).getLastD 0 = BitVec.ofNat 8 n := by
    simp [List.getLastD_eq_getLast?, List.getLast?_append, List.getLast?_replicate, hpos.ne']
  have hval : (BitVec.ofNat 8 n).toNat = n := by simp; omega
  refine ⟨?_, by rw [hlast, hval]⟩
  simp only [validPadding, hlast, hval]
  simp [hpos.ne', hle]

/-- How many of `n` bytes UNPAD has passed on when it has seen them all and not the end: it holds the last block. -/
def releasedBytes (bsz n : Nat) : Nat := if n % bsz = 0 then n - bsz else n / bsz * bsz

theorem releasedBytes_add {bsz n : Nat} (hbsz : 0 < bsz) (hn : 0 < n) :
    releasedBytes bsz (bsz + n) = bsz + releasedBytes bsz n := by
  simp only [releasedBytes, Nat.add_mod_left, Nat.add_div_left n hbsz, Nat.succ_mul]
  split
  · next hwhole =>
    have hge : bsz ≤ n := Nat.le_of_dvd hn (Nat.dvd_of_mod_eq_zero hwhole)
    omega
  · omega

theorem unpadStream_fail (bsz : Nat) (xs : List Byte) (e : Err) :
    unpadStream bsz ⟨xs, .fail e⟩ = ⟨xs.take (releasedBytes bsz xs.length), .fail e⟩ := rfl

theorem unpadStream_eos (bsz : Nat) (xs : List Byte) :
    unpadStream bsz ⟨xs, .eos⟩ =
      if xs.length = 0 then ⟨[], .fail .pae⟩
      else if xs.length % bsz ≠ 0 then ⟨xs.take (releasedBytes bsz xs.length), .fail .lce⟩
      else if validPadding bsz xs then ⟨xs.take (xs.length - (xs.getLastD 0).toNat), .eos⟩
      else ⟨xs.take (releasedBytes bsz xs.length), .fail .pae⟩ := rfl

theorem unpadStream_nil_eos (bsz : Nat) : unpadStream bsz ⟨[], .eos⟩ = ⟨[], .fail .pae⟩ := rfl

section Unpad
variable {bsz : Nat} {xs : List Byte}

theorem unpadStream_of_valid (hne : xs ≠ []) (hwhole : xs.length % bsz = 0) (hvalid : validPadding bsz xs = true) :
    unpadStream bsz ⟨xs, .eos⟩ = ⟨xs.take (xs.length - (xs.getLastD 0).toNat), .eos⟩ := by
  simp [unpadStream_eos, hne, hwhole, hvalid]

theorem unpadStream_eos_of_partial (hne : xs ≠ []) (hlt : xs.length < bsz) :
    unpadStream bsz ⟨xs, .eos⟩ = ⟨[], .fail .lce⟩ := by
  simp [unpadStream_eos, releasedBytes, hne, Nat.mod_eq_of_lt hlt, Nat.div_eq_of_lt hlt]

theorem unpadStream_of_invalid (hlen : xs.length = bsz) (hvalid : validPadding bsz xs = false) :
    unpadStream bsz ⟨xs, .eos⟩ = ⟨[], .fail .pae⟩ := by
  simp [unpadStream_eos, releasedBytes, hvalid, hlen]

/-- The block that UNPAD holds is dropped when the input fails. -/
theorem unpadStream_fail_of_short (hle : xs.length ≤ bsz) (e : Err) :
    unpadStream bsz ⟨xs, .fail e⟩ = ⟨[], .fail e⟩ := by
  obtain hlt | heq := Nat.lt_or_eq_of_le hle
  · have hsub : xs.length - bsz = 0 := by omega
    simp [unpadStream_fail, releasedBytes, Nat.div_eq_of_lt hlt, hsub]
  · simp [unpadStream_fail, releasedBytes, heq]

theorem getLastD_append (block : List Byte) (hne : xs ≠ []) : (block ++ xs).getLastD 0 = xs.getLastD 0 := by
  rw [List.getLastD_eq_getLast?, List.getLast?_append_of_ne_nil _ hne, List.getLastD_eq_getLast?]

theorem le_of_validPadding (h : validPadding bsz xs = true) : (xs.getLastD 0).toNat ≤ bsz := by
  simp only [validPadding, Bool.and_eq_true, decide_eq_true_eq] at h
  exact h.1.2

variable {block : List Byte} (hblock : block.length = bsz)
include hblock

theorem validPadding_append (hle : bsz ≤ xs.length) (hne : xs ≠ []) :
    validPadding bsz (block ++ xs) = validPadding bsz xs := by
  simp only [validPadding, getLastD_append block hne]
  generalize xs.getLastD 0 = n
  by_cases hn : n.toNat ≤ bsz
  · have hdrop : (block ++ xs).length - n.toNat = block.length + (xs.length - n.toNat) := by
      rw [List.length_append]; omega
    rw [hdrop, List.drop_length_add_append]
  · simp [hn]

/-- UNPAD releases a whole block once it sees the next byte. -/
theorem unpadStream_block (hbsz : 0 < bsz) (hne : xs ≠ []) (t : Terminal) :
    unpadStream bsz ⟨block ++ xs, t⟩ = prependBytes block (unpadStream bsz ⟨xs, t⟩) := by
  have hpos : 0 < xs.length := List.length_pos_iff.mpr hne
  have hlen : (block ++ xs).length = bsz + xs.length := by rw [List.length_append, hblock]
  have htake : ∀ n, (block ++ xs).take (bsz + n) = block ++ xs.take n := fun n => by
    rw [← hblock, List.take_length_add_append]
  have hreleased : (block ++ xs).take (releasedBytes bsz (bsz + xs.length)) =
      block ++ xs.take (releasedBytes bsz xs.length) := by
    rw [releasedBytes_add hbsz hpos, htake]
  obtain _ | e := t
  · have hnonempty : bsz + xs.length ≠ 0 := by omega
    simp only [unpadStream_eos, hlen, Nat.add_mod_left, hreleased, hnonempty, hpos.ne', if_false]
    by_cases hwhole : xs.length % bsz = 0
    · have hge : bsz ≤ xs.length := Nat.le_of_dvd hpos (Nat.dvd_of_mod_eq_zero hwhole)
      simp only [hwhole, ne_eq, not_true, if_false, validPadding_append hblock hge hne, getLastD_append block hne]
      by_cases hvalid : validPadding bsz xs = true
      · have hn := le_of_validPadding hvalid
        rw [if_pos hvalid, if_pos hvalid, Nat.add_sub_assoc (hn.trans hge), htake]
        rfl
      · rw [if_neg hvalid, if_neg hvalid]
        rfl
    · rw [if_pos hwhole, if_pos hwhole]
      rfl
  · rw [unpadStream_fail, unpadStream_fail, hlen, hreleased]
    rfl

end Unpad

/-- Settles O52: the padded length is a whole number of blocks, and the last byte is the pad amount. -/
theorem unpadUndoesPad : Obligations.UnpadUndoesPad := by
  unfold Obligations.UnpadUndoesPad
  intro bsz xs hpos hle
  have hpad := padAmount_pos hpos xs.length
  have hlen := add_padAmount hpos xs.length
  obtain ⟨hvalid, hlast⟩ := validPadding_append_replicate hpad (padAmount_le bsz _) hle xs
  rw [padStream_eos, unpadStream_of_valid (by simp; omega) (by simp [hlen]) hvalid, hlast]
  simp

end Sys2Proof.Machine
end

section
/-! Delivery: what a worker does with the items that come to it does not depend on when they come, nor does what a pipeline of
workers does (45_stream_pipeline.md R301, R306). -/

namespace Sys2Proof.Machine

open Sys2Proof.Safety Relation

/-! ### One worker -/

/-- The worker `w` of the unit `p`, in the state `s`, turns the items `ins` into the items `outs` in `n` actions and is then
done. It need not take all of `ins`. -/
inductive Pipeline.Delivers (p : Pipeline) (w : Worker) : Nat → State → List Item → List Item → Prop
  | done {s : State} (ins : List Item) (h : workerDone w s = true) : Delivers p w 0 s ins []
  | inner {n : Nat} {s t : State} {ins outs : List Item} (h : p.inner s = some t) (hrest : Delivers p w n t ins outs) :
      Delivers p w (n + 1) s ins outs
  | input {n : Nat} {s : State} {x : Item} {ins outs : List Item} (h : p.filling s = true)
      (hrest : Delivers p w n (p.receive x s) ins outs) : Delivers p w (n + 1) s (x :: ins) outs
  | output {n : Nat} {s : State} {y : Item} {ins outs : List Item} (h : p.offer s = some y)
      (hrest : Delivers p w n (p.sent s) ins outs) : Delivers p w (n + 1) s ins (y :: outs)

namespace Pipeline.RunBy
variable {p : Pipeline} {w : Worker} (hp : p.RunBy w) {n : Nat} {s t : State} {ins outs : List Item}
include hp

/-- Only what the worker sees matters. -/
theorem delivers_view (h : p.Delivers w n s ins outs) {s' : State} (hview : SameView w s s') :
    p.Delivers w n s' ins outs := by
  induction h generalizing s' with
  | done ins h => exact .done ins (hview.workerDone_eq.trans h)
  | inner h _ ih =>
    obtain ⟨t', ht', hview'⟩ := hp.inner_view hview h
    exact .inner ht' (ih hview')
  | input h _ ih => exact .input ((hp.filling_view hview).trans h) (ih (hp.receive_view _ hview))
  | output h _ ih => exact .output ((hp.offer_view hview).trans h) (ih (hp.sent_view hview))

/-! #### The action that is enabled is the next one of the delivery -/

theorem delivers_of_done (h : p.Delivers w n s ins outs) (hdone : workerDone w s = true) : outs = [] := by
  obtain ⟨hfill, hoffer, hinner⟩ := hp.done_quiet hdone
  cases h with
  | done => rfl
  | inner h => simp [hinner] at h
  | input h => simp [hfill] at h
  | output h => simp [hoffer] at h

theorem delivers_of_inner (h : p.Delivers w n s ins outs) (ht : p.inner s = some t) :
    ∃ m < n, p.Delivers w m t ins outs := by
  obtain ⟨hfill, hoffer⟩ := hp.inner_alone ht
  cases h with
  | done _ hdone => simp [(hp.done_quiet hdone).2.2] at ht
  | inner h hrest =>
    obtain rfl := Option.some.inj (ht.symm.trans h)
    exact ⟨_, Nat.lt_succ_self _, hrest⟩
  | input h => simp [hfill] at h
  | output h => simp [hoffer] at h

theorem delivers_of_filling (h : p.Delivers w n s ins outs) (hfill : p.filling s = true) :
    ∃ x rest, ins = x :: rest ∧ ∃ m < n, p.Delivers w m (p.receive x s) rest outs := by
  cases h with
  | done _ hdone => simp [(hp.done_quiet hdone).1] at hfill
  | inner h => simp [(hp.inner_alone h).1] at hfill
  | input _ hrest => exact ⟨_, _, rfl, _, Nat.lt_succ_self _, hrest⟩
  | output h => simp [hp.offer_alone h] at hfill

theorem delivers_of_offer (h : p.Delivers w n s ins outs) {y : Item} (hoffer : p.offer s = some y) :
    ∃ rest, outs = y :: rest ∧ ∃ m < n, p.Delivers w m (p.sent s) ins rest := by
  cases h with
  | done _ hdone => simp [(hp.done_quiet hdone).2.1] at hoffer
  | inner h => simp [(hp.inner_alone h).2] at hoffer
  | input h => simp [hp.offer_alone hoffer] at h
  | output h hrest =>
    obtain rfl := Option.some.inj (hoffer.symm.trans h)
    exact ⟨_, rfl, _, Nat.lt_succ_self _, hrest⟩

end Pipeline.RunBy

/-! ### The workers of a command -/

/-- The workers of the command `i`, in the state `s`, turn the items `ins` into the items `outs` in `n` actions in all: one
worker, or two of which the second gets what the first delivers. -/
inductive Delivering (i : Instr) : Nat → State → List Item → List Item → Prop
  | single {w : Worker} {n : Nat} {s : State} {ins outs : List Item} (hw : workersOf i = [w])
      (h : (unitOf i w).Delivers w n s ins outs) : Delivering i n s ins outs
  | pair {u d : Worker} {n m : Nat} {s : State} {ins mid outs : List Item} (hw : workersOf i = [u, d])
      (hup : (unitOf i u).Delivers u n s ins mid) (hdown : (unitOf i d).Delivers d m s mid outs) :
      Delivering i (n + m) s ins outs

theorem Delivering.withHost {i : Instr} {n : Nat} {s : State} {ins outs : List Item} (h : Delivering i n s ins outs)
    (top : Top) (env : Env) (edges : Nat) : Delivering i n (withHost top env edges s) ins outs := by
  cases h with
  | single hw h => exact .single hw ((unitOf_runBy (by simp [hw])).delivers_view h (sameView_withHost ..))
  | pair hw hup hdown =>
    exact .pair hw ((unitOf_runBy (by simp [hw])).delivers_view hup (sameView_withHost ..))
      ((unitOf_runBy (by simp [hw])).delivers_view hdown (sameView_withHost ..))

section Delivering
variable {i : Instr} {n : Nat} {s t : State} {ins outs : List Item}

theorem Delivering.of_inner (h : Delivering i n s ins outs) {w : Worker} (hmem : w ∈ workersOf i)
    (ht : (unitOf i w).inner s = some t) : ∃ m < n, Delivering i m t ins outs := by
  have hrun := unitOf_runBy hmem
  have hwrites := hrun.inner_writes ht
  cases h with
  | single hw h =>
    obtain rfl : w = _ := by simpa [hw] using hmem
    obtain ⟨m, hm, h⟩ := hrun.delivers_of_inner h ht
    exact ⟨m, hm, .single hw h⟩
  | pair hw hup hdown =>
    obtain ⟨hu, hd, hapart⟩ := pair_apart hw
    obtain rfl | rfl : w = _ ∨ w = _ := by simpa [hw] using hmem
    · obtain ⟨m, hm, hup⟩ := hrun.delivers_of_inner hup ht
      exact ⟨_, by omega, .pair hw hup ((unitOf_runBy hd).delivers_view hdown (hwrites.sameView hapart))⟩
    · obtain ⟨m, hm, hdown⟩ := hrun.delivers_of_inner hdown ht
      exact ⟨_, by omega, .pair hw ((unitOf_runBy hu).delivers_view hup (hwrites.sameView hapart.symm)) hdown⟩

/-- What the first worker sends is what the second one expects. -/
theorem Delivering.of_transfer (h : Delivering i n s ins outs) {u d : Worker} {x : Item} (hw : workersOf i = [u, d])
    (hoffer : (unitOf i u).offer s = some x) (hfill : (unitOf i d).filling s = true) :
    ∃ m < n, Delivering i m ((unitOf i d).receive x ((unitOf i u).sent s)) ins outs := by
  cases h with
  | single hw' => simp [hw'] at hw
  | pair hw' hup hdown =>
    obtain ⟨rfl, rfl⟩ : _ = u ∧ _ = d := by simpa [hw'] using hw
    obtain ⟨hu, hd, hapart⟩ := pair_apart hw
    have hrunU := unitOf_runBy hu
    have hrunD := unitOf_runBy hd
    obtain ⟨mid, rfl, m, hm, hup⟩ := hrunU.delivers_of_offer hup hoffer
    obtain ⟨y, mid', heq, l, hl, hdown⟩ := hrunD.delivers_of_filling hdown hfill
    obtain ⟨rfl, rfl⟩ := List.cons.inj heq
    refine ⟨m + l, by omega, .pair (mid := mid) hw ?_ ?_⟩
    · exact hrunU.delivers_view hup ((hrunD.receive_writes _ _).sameView hapart.symm)
    · exact hrunD.delivers_view hdown (hrunD.receive_view _ ((hrunU.sent_writes s).sameView hapart))

theorem Delivering.of_input (h : Delivering i n s ins outs) {w : Worker} (hfirst : (workersOf i).head? = some w)
    (hfill : (unitOf i w).filling s = true) :
    ∃ x rest, ins = x :: rest ∧ ∃ m < n, Delivering i m ((unitOf i w).receive x s) rest outs := by
  have hrun := unitOf_runBy (first_mem hfirst)
  cases h with
  | single hw h =>
    obtain rfl : _ = w := by simpa [hw] using hfirst
    obtain ⟨x, rest, rfl, m, hm, h⟩ := hrun.delivers_of_filling h hfill
    exact ⟨x, rest, rfl, m, hm, .single hw h⟩
  | pair hw hup hdown =>
    obtain ⟨hu, hd, hapart⟩ := pair_apart hw
    obtain rfl : _ = w := by simpa [hw] using hfirst
    obtain ⟨x, rest, rfl, m, hm, hup⟩ := hrun.delivers_of_filling hup hfill
    exact ⟨x, rest, rfl, _, by omega,
      .pair hw hup ((unitOf_runBy hd).delivers_view hdown ((hrun.receive_writes x s).sameView hapart))⟩

theorem Delivering.of_output (h : Delivering i n s ins outs) {w : Worker} {y : Item}
    (hlast : (workersOf i).getLast? = some w) (hoffer : (unitOf i w).offer s = some y) :
    ∃ rest, outs = y :: rest ∧ ∃ m < n, Delivering i m ((unitOf i w).sent s) ins rest := by
  have hrun := unitOf_runBy (last_mem hlast)
  cases h with
  | single hw h =>
    obtain rfl : _ = w := by simpa [hw] using hlast
    obtain ⟨rest, rfl, m, hm, h⟩ := hrun.delivers_of_offer h hoffer
    exact ⟨rest, rfl, m, hm, .single hw h⟩
  | pair hw hup hdown =>
    obtain ⟨hu, hd, hapart⟩ := pair_apart hw
    obtain rfl : _ = w := by simpa [hw] using hlast
    obtain ⟨rest, rfl, m, hm, hdown⟩ := hrun.delivers_of_offer hdown hoffer
    exact ⟨rest, rfl, _, by omega,
      .pair hw ((unitOf_runBy hu).delivers_view hup ((hrun.sent_writes s).sameView hapart.symm)) hdown⟩

/-- Once the last worker is done nothing is left to deliver. -/
theorem Delivering.of_done (h : Delivering i n s ins outs) {w : Worker} (hlast : (workersOf i).getLast? = some w)
    (hdone : workerDone w s = true) : outs = [] := by
  have hrun := unitOf_runBy (last_mem hlast)
  cases h with
  | single hw h =>
    obtain rfl : _ = w := by simpa [hw] using hlast
    exact hrun.delivers_of_done h hdone
  | pair hw hup hdown =>
    obtain rfl : _ = w := by simpa [hw] using hlast
    exact hrun.delivers_of_done hdown hdone

end Delivering

/-! ### The host's offers as items (R113, R303) -/

/-- The offer arrives as the item, whatever the schedule picks: it is not a race. -/
inductive OfferedAs : Offer → Item → Prop
  | byte (b : Byte) : OfferedAs (.byte b) (.data b)
  | term (f : Bool) : OfferedAs (.term f) (.term (inputTerminal f))

theorem offeredAs_offersOf (xs : List Byte) (failed : Bool) :
    List.Forall₂ OfferedAs (offersOf xs failed) (Stream.items ⟨xs, inputTerminal failed⟩) := by
  induction xs with
  | nil => exact .cons (.term failed) .nil
  | cons b xs ih => exact .cons (.byte b) ih

/-- The first item arrives, and the others are offered after it. -/
theorem arriving_of_offered {s : State} {x y : Item} {ins : List Item}
    (h : List.Forall₂ OfferedAs s.env.input (x :: ins)) (hy : arrivingItem s = some y) :
    y = x ∧ List.Forall₂ OfferedAs (offersAfter y s.env.input) ins := by
  cases hin : s.env.input with
  | nil => simp [hin] at h
  | cons o rest =>
    rw [hin, List.forall₂_cons] at h
    obtain ⟨ho, hrest⟩ := h
    have hoffer : currentOffer s = some o := by
      unfold currentOffer
      split
      · rw [hin]; rfl
      · next hn => simp [arrivingItem_eq, currentOffer, hn] at hy
    rw [arrivingItem_eq, hoffer] at hy
    cases ho with
    | byte b => exact ⟨(Option.some.inj hy).symm, hrest⟩
    | term f => exact ⟨(Option.some.inj hy).symm, hrest⟩

/-! ### What a running core still owes the host -/

/-- With `before` taken before the command and `items` its stream: what was taken since is a beginning of the stream, and the
workers turn what the host still offers into the rest of it in `n` actions. Once `TOP` is IDLE nothing is left. -/
def Owes (i : Instr) (before items : List Item) (n : Nat) (s : State) : Prop :=
  ∃ given ins outs, s.env.taken = before ++ given ∧ given ++ outs = items ∧ List.Forall₂ OfferedAs s.env.input ins ∧
    Delivering i n s ins outs ∧ (s.top = .idle → outs = [])

section Owes
variable {i : Instr} {before items : List Item} {n : Nat} {s t : State}

theorem Owes.coreStep (h : Owes i before items n s) (hstep : CoreStep i s t) : ∃ m < n, Owes i before items m t := by
  obtain ⟨given, ins, outs, htaken, hitems, hoffers, hdel, hend⟩ := h
  cases hstep with
  | inner hw ht =>
    have hwrites := (unitOf_runBy hw).inner_writes ht
    obtain ⟨m, hm, hdel⟩ := hdel.of_inner hw ht
    exact ⟨m, hm, given, ins, outs, by rwa [hwrites.env], hitems, by rwa [hwrites.env], hdel, by rwa [hwrites.top]⟩
  | @transfer u d x hw hoffer hfill =>
    obtain ⟨hu, hd, -⟩ := pair_apart hw
    have hsent := (unitOf_runBy hu).sent_writes s
    have hreceive := (unitOf_runBy hd).receive_writes x ((unitOf i u).sent s)
    obtain ⟨m, hm, hdel⟩ := hdel.of_transfer hw hoffer hfill
    exact ⟨m, hm, given, ins, outs, by rwa [hreceive.env, hsent.env], hitems, by rwa [hreceive.env, hsent.env], hdel,
      by rwa [hreceive.top, hsent.top]⟩
  | @input w y hw hfill hx =>
    have hwrites := (unitOf_runBy (first_mem hw)).receive_writes y s
    obtain ⟨x, rest, rfl, m, hm, hdel⟩ := hdel.of_input hw hfill
    obtain ⟨rfl, hrest⟩ := arriving_of_offered hoffers hx
    rw [hostSent_eq_withHost, hwrites.env, hwrites.top, hwrites.edges]
    exact ⟨m, hm, given, rest, outs, htaken, hitems, hrest, hdel.withHost .., hend⟩
  | @output w y hw hoffer =>
    have hrun := unitOf_runBy (last_mem hw)
    have hwrites := hrun.sent_writes s
    obtain ⟨rest, rfl, m, hm, hafter⟩ := hdel.of_output hw hoffer
    rw [hostTook_eq_withHost, hwrites.env, hwrites.top, hwrites.edges]
    refine ⟨m, hm, given ++ [y], ins, rest, by simp [withHost, htaken], by simpa using hitems, hoffers,
      hafter.withHost .., fun hidle => ?_⟩
    cases y with
    | term x => exact hafter.of_done hw (hrun.sent_term (hrun.offer_term.mp hoffer))
    | data b => exact absurd (hend hidle) (by simp)

/-- An edge on which anything happens leaves fewer actions to take. -/
theorem Owes.edge (h : Owes i before items n s) :
    ((pipelineOf i).innerAt s = none ∧ (pipelineOf i).inputAt s = none ∧ (pipelineOf i).outputAt s = none ∧
      (pipelineOf i).edge s = s) ∨ ∃ m < n, Owes i before items m ((pipelineOf i).edge s) := by
  refine (edge_coreSteps i s).imp_right fun hsteps => ?_
  generalize (pipelineOf i).edge s = t at hsteps
  induction hsteps with
  | single hstep => exact h.coreStep hstep
  | tail _ hstep ih =>
    obtain ⟨m, hm, ih⟩ := ih
    obtain ⟨l, hl, hlast⟩ := ih.coreStep hstep
    exact ⟨l, hl.trans hm, hlast⟩

end Owes

end Sys2Proof.Machine
end

section
/-! What each worker delivers: its stream function (43_chaining.md R243; 44_padding.md R264, R273). -/

namespace Sys2Proof.Machine

open Sys2Proof.Safety

/-! ### Bytes in a buffer -/

/-- The buffer holds the bytes `bs` from position `j` on. -/
def HoldsAt {n : Nat} (buf : Vector Byte n) (j : Nat) (bs : List Byte) : Prop :=
  ∀ k (h : k < bs.length), readAt buf (j + k) = bs[k]

section Buffer
variable {n : Nat} {buf : Vector Byte n} {j : Nat} {b : Byte} {bs : List Byte}

theorem holdsAt_nil (buf : Vector Byte n) (j : Nat) : HoldsAt buf j [] := fun k h => by simp at h

theorem HoldsAt.head (h : HoldsAt buf j (b :: bs)) : readAt buf j = b := h 0 (by simp)

theorem HoldsAt.tail (h : HoldsAt buf j (b :: bs)) : HoldsAt buf (j + 1) bs := fun k hk => by
  rw [Nat.add_assoc, Nat.add_comm 1]
  exact h (k + 1) (by simpa using hk)

theorem HoldsAt.take (h : HoldsAt buf j bs) (k : Nat) : HoldsAt buf j (bs.take k) := fun l hl => by
  rw [List.getElem_take]
  exact h l _

/-- One more byte is written behind those held. -/
theorem HoldsAt.snoc (h : HoldsAt buf 0 bs) (hroom : bs.length < n) (b : Byte) :
    HoldsAt (buf.setIfInBounds bs.length b) 0 (bs ++ [b]) := by
  intro k hk
  rw [List.length_append, List.length_singleton] at hk
  rw [Nat.zero_add, readAt_of_lt _ (by omega), Vector.getElem_setIfInBounds]
  obtain hlt | rfl := Nat.lt_succ_iff_lt_or_eq.mp hk
  · have hread := h k hlt
    rw [Nat.zero_add, readAt_of_lt _ (by omega)] at hread
    simp [hlt, hlt.ne', hread]
  · simp

theorem holdsAt_toList (buf : Vector Byte n) : HoldsAt buf 0 buf.toList := fun k hk => by
  rw [Nat.zero_add, readAt_of_lt _ (by simpa using hk)]
  simp

theorem HoldsAt.toList_eq (h : HoldsAt buf 0 bs) (hlen : bs.length = n) : buf.toList = bs := by
  refine List.ext_getElem (by simp [hlen]) fun k _ hk => ?_
  have hread := h k hk
  rw [Nat.zero_add, readAt_of_lt _ (by omega)] at hread
  simpa using hread

end Buffer

/-! ### Deliveries, action by action -/

/-- The worker turns the items `ins` into the items `outs` and is then done. -/
def Pipeline.WillDeliver (p : Pipeline) (w : Worker) (s : State) (ins outs : List Item) : Prop :=
  ∃ n, p.Delivers w n s ins outs

namespace Pipeline.WillDeliver
variable {p : Pipeline} {w : Worker} {s t : State} {ins outs : List Item}

theorem of_inner (ht : p.inner s = some t) (h : p.WillDeliver w t ins outs) : p.WillDeliver w s ins outs := by
  obtain ⟨n, h⟩ := h
  exact ⟨n + 1, .inner ht h⟩

theorem of_input {x : Item} (hfill : p.filling s = true) (h : p.WillDeliver w (p.receive x s) ins outs) :
    p.WillDeliver w s (x :: ins) outs := by
  obtain ⟨n, h⟩ := h
  exact ⟨n + 1, .input hfill h⟩

theorem of_output {y : Item} (hoffer : p.offer s = some y) (h : p.WillDeliver w (p.sent s) ins outs) :
    p.WillDeliver w s ins (y :: outs) := by
  obtain ⟨n, h⟩ := h
  exact ⟨n + 1, .output hoffer h⟩

/-- A worker that offers its terminal delivers that and nothing more. -/
theorem of_term (hp : p.RunBy w) {x : Terminal} (hoffer : p.offer s = some (.term x)) (ins : List Item) :
    p.WillDeliver w s ins [.term x] :=
  of_output hoffer ⟨0, .done ins (hp.sent_term (hp.offer_term.mp hoffer))⟩

/-- A worker sends bytes one after another: in a state of `Sends bs` it has the bytes `bs` still to send. -/
theorem of_sending (Sends : List Byte → State → Prop)
    (hoffer : ∀ {b bs s}, Sends (b :: bs) s → p.offer s = some (.data b))
    (hmore : ∀ {b b' bs s}, Sends (b :: b' :: bs) s → Sends (b' :: bs) (p.sent s))
    (hlast : ∀ {b s}, Sends [b] s → p.WillDeliver w (p.sent s) ins outs) {bs : List Byte} (hne : bs ≠ [])
    (h : Sends bs s) : p.WillDeliver w s ins (bs.map .data ++ outs) := by
  induction bs generalizing s with
  | nil => exact absurd rfl hne
  | cons b bs ih =>
    refine of_output (hoffer h) ?_
    cases bs with
    | nil => exact hlast h
    | cons b' bs => exact ih (by simp) (hmore h)

end Pipeline.WillDeliver

/-! ### PAD (R264) -/

/-- PAD receives, and holds the bytes `hs` of a block of `bsz` bytes. -/
structure PadFills (bsz : Byte) (hs : List Byte) (s : State) : Prop where
  state : s.pad.pst = .fill
  size : s.latch.bsz = bsz
  count : s.pad.pcnt.toNat = hs.length
  room : hs.length < bsz.toNat
  held : HoldsAt s.pad.pbuf 0 hs
  notLast : s.pad.plast = false

/-- PAD has the bytes `bs` of a block of `bsz` bytes still to send. -/
structure PadSends (bsz : Byte) (last : Bool) (bs : List Byte) (s : State) : Prop where
  state : s.pad.pst = .flush
  size : s.latch.bsz = bsz
  count : s.pad.pout.toNat + bs.length = bsz.toNat
  held : HoldsAt s.pad.pbuf s.pad.pout.toNat bs
  last_eq : s.pad.plast = last

theorem readAt_fillFrom (buf : PadBuffer) (lo hi : Nat) (p : Byte) {k : Nat} (hk : k < 255) :
    readAt (fillFrom buf lo hi p) k = if lo ≤ k ∧ k < hi then p else readAt buf k := by
  rw [readAt_of_lt _ hk, readAt_of_lt _ hk]
  exact Vector.getElem_ofFn _

/-- The pad bytes follow those held. -/
theorem holdsAt_fillFrom {buf : PadBuffer} {hs : List Byte} {bsz : Byte} (h : HoldsAt buf 0 hs) (hroom : hs.length < bsz.toNat)
    (p : Byte) : HoldsAt (fillFrom buf hs.length bsz.toNat p) 0 (hs ++ List.replicate (bsz.toNat - hs.length) p) := by
  intro k hk
  have hbsz : bsz.toNat < 256 := bsz.isLt
  have hlt : k < bsz.toNat := by simp at hk; omega
  rw [Nat.zero_add, readAt_fillFrom _ _ _ _ (by omega)]
  by_cases hheld : k < hs.length
  · rw [if_neg (by omega), List.getElem_append_left hheld, ← h k hheld, Nat.zero_add]
  · rw [if_pos (by omega), List.getElem_append_right (by omega), List.getElem_replicate]

section Pad
variable {bsz : Byte} {last : Bool} {b b' : Byte} {bs hs : List Byte} {s : State}

theorem PadSends.offer_eq (h : PadSends bsz last (b :: bs) s) : padOffer s = some (.data b) := by
  rw [← h.held.head]
  exact padOffer_of_flush h.state

theorem PadSends.sent_more (h : PadSends bsz last (b :: b' :: bs) s) : PadSends bsz last (b' :: bs) (padSent s) := by
  obtain ⟨hst, hsize, hcount, hheld, hlast⟩ := h
  simp only [List.length_cons] at hcount
  have hmore : s.pad.pout + 1 ≠ s.latch.bsz := by bv_omega
  have hout : (s.pad.pout + 1).toNat = s.pad.pout.toNat + 1 := by bv_omega
  simp only [padSent_of_flush hst, if_neg hmore]
  refine ⟨hst, hsize, ?_, by simpa only [hout] using hheld.tail, hlast⟩
  simp only [hout, List.length_cons]
  omega

/-- The last byte of a block that is not the last is followed by the next fill. -/
theorem PadSends.sent_block (h : PadSends bsz false [b] s) : PadFills bsz [] (padSent s) := by
  obtain ⟨hst, hsize, hcount, -, hlast⟩ := h
  simp only [List.length_singleton] at hcount
  have hend : s.pad.pout + 1 = s.latch.bsz := by bv_omega
  simp only [padSent_of_flush hst, if_pos hend, hlast]
  exact ⟨rfl, hsize, rfl, by simp; omega, holdsAt_nil _ _, rfl⟩

theorem PadSends.sent_last (h : PadSends bsz true [b] s) : (padSent s).pad.pst = .term .eos := by
  obtain ⟨hst, hsize, hcount, -, hlast⟩ := h
  simp only [List.length_singleton] at hcount
  have hend : s.pad.pout + 1 = s.latch.bsz := by bv_omega
  simp only [padSent_of_flush hst, if_pos hend, hlast, if_true]

theorem PadFills.filling (h : PadFills bsz hs s) : padPipeline.filling s = true := by simp [padPipeline, h.state]

theorem PadFills.receive_data (h : PadFills bsz hs s) (hmore : hs.length + 1 < bsz.toNat) (b : Byte) :
    PadFills bsz (hs ++ [b]) (padReceive (.data b) s) := by
  obtain ⟨hst, hsize, hcount, hroom, hheld, hlast⟩ := h
  have hsnoc := hheld.snoc (by omega) b
  rw [← hcount] at hsnoc
  have hne : s.pad.pcnt + 1 ≠ s.latch.bsz := by bv_omega
  simp only [padReceive_data, if_neg hne]
  exact ⟨hst, hsize, by simp; bv_omega, by simpa using hmore, hsnoc, hlast⟩

/-- The last byte of a block is followed by the block. -/
theorem PadFills.receive_last (h : PadFills bsz hs s) (hfull : hs.length + 1 = bsz.toNat) (b : Byte) :
    PadSends bsz false (hs ++ [b]) (padReceive (.data b) s) := by
  obtain ⟨hst, hsize, hcount, hroom, hheld, hlast⟩ := h
  have hsnoc := hheld.snoc (by omega) b
  rw [← hcount] at hsnoc
  have heq : s.pad.pcnt + 1 = s.latch.bsz := by bv_omega
  simp only [padReceive_data, if_pos heq]
  exact ⟨rfl, hsize, by simpa using hfull, hsnoc, hlast⟩

/-- The clean end is followed by the bytes held and the pad bytes. -/
theorem PadFills.receive_eos (h : PadFills bsz hs s) :
    PadSends bsz true (hs ++ List.replicate (bsz.toNat - hs.length) (BitVec.ofNat 8 (bsz.toNat - hs.length)))
      (padReceive (.term .eos) s) := by
  obtain ⟨hst, rfl, hcount, hroom, hheld, hlast⟩ := h
  have hpad : s.latch.bsz - s.pad.pcnt = BitVec.ofNat 8 (s.latch.bsz.toNat - hs.length) := by bv_omega
  simp only [padReceive_eos, hpad, hcount]
  refine ⟨rfl, rfl, ?_, holdsAt_fillFrom hheld hroom _, rfl⟩
  simp
  omega

theorem PadSends.deliver {ins outs : List Item}
    (hlast : ∀ {b s}, PadSends bsz last [b] s → padPipeline.WillDeliver .pad (padSent s) ins outs) (hne : bs ≠ [])
    (h : PadSends bsz last bs s) : padPipeline.WillDeliver .pad s ins (bs.map .data ++ outs) :=
  .of_sending (PadSends bsz last) PadSends.offer_eq PadSends.sent_more hlast hne h

theorem PadFills.deliver {xs : List Byte} {t : Terminal} (h : PadFills bsz hs s) :
    padPipeline.WillDeliver .pad s (Stream.items ⟨xs, t⟩) (padStream bsz.toNat ⟨hs ++ xs, t⟩).items := by
  induction xs generalizing hs s with
  | nil =>
    refine .of_input h.filling ?_
    have hroom := h.room
    rw [List.append_nil]
    obtain _ | e := t
    · rw [padStream_eos_of_short hroom]
      refine h.receive_eos.deliver (fun h => ?_) (by simp; omega)
      exact .of_term padPipeline_runBy (padOffer_of_term h.sent_last) _
    · rw [padStream_fail_of_short hroom]
      exact .of_term padPipeline_runBy (padOffer_of_term rfl) _
  | cons b xs ih =>
    have hbytes : hs ++ b :: xs = (hs ++ [b]) ++ xs := by simp
    refine .of_input h.filling ?_
    rw [hbytes]
    obtain hmore | hfull := Nat.lt_or_eq_of_le h.room
    · exact ih (h.receive_data hmore b)
    · have hlen : (hs ++ [b]).length = bsz.toNat := by simpa using hfull
      rw [padStream_block (by omega) hlen, items_prependBytes]
      exact (h.receive_last hfull b).deliver (fun h => ih h.sent_block) (by simp)

end Pad

/-! ### ENGINE (R243) -/

/-- ENGINE receives, and holds the bytes `hs` of a block. -/
structure EngineFills (hs : List Byte) (s : State) : Prop where
  state : s.eng.est = .fill
  count : s.eng.icnt.toNat = hs.length
  room : hs.length < 16
  held : HoldsAt s.eng.ibuf 0 hs

/-- ENGINE holds the block `x` and is to transform it. -/
structure EngineFull (x : Block) (s : State) : Prop where
  state : s.eng.est = .xform
  held : s.eng.ibuf = x

/-- ENGINE has the bytes `bs` of a block still to send. -/
structure EngineSends (bs : List Byte) (s : State) : Prop where
  state : s.eng.est = .drain
  empty : s.eng.icnt = 0
  count : s.eng.ocnt.toNat + bs.length = 16
  held : HoldsAt s.eng.obuf s.eng.ocnt.toNat bs

@[simp] theorem enginePipeline_receive (step : BlockStep) : (enginePipeline step).receive = engineReceive := rfl

@[simp] theorem engineReceive_fb (x : Item) (s : State) : (engineReceive x s).eng.fb = s.eng.fb := by
  rcases x with b | (_ | e)
  · simp only [engineReceive]; split <;> rfl
  · simp only [engineReceive_eos]
  · rfl

@[simp] theorem engineSent_fb (s : State) : (engineSent s).eng.fb = s.eng.fb := by
  cases hst : s.eng.est with
  | drain => rw [engineSent_of_drain hst]
  | term t => rw [engineSent_of_term hst]
  | idle | fill | xform | done => simp only [engineSent, hst]

section Engine
variable {m : ChainMode} {b b' : Byte} {bs hs : List Byte} {x : Block} {s : State}

theorem EngineSends.offer_eq (h : EngineSends (b :: bs) s) : engineOffer s = some (.data b) := by
  rw [← h.held.head]
  exact engineOffer_of_drain h.state

theorem EngineSends.sent_more (h : EngineSends (b :: b' :: bs) s) : EngineSends (b' :: bs) (engineSent s) := by
  obtain ⟨hst, hempty, hcount, hheld⟩ := h
  simp only [List.length_cons] at hcount
  have hmore : s.eng.ocnt ≠ 15 := by bv_omega
  have hout : (s.eng.ocnt + 1).toNat = s.eng.ocnt.toNat + 1 := by bv_omega
  simp only [engineSent_of_drain hst, if_neg hmore]
  refine ⟨rfl, hempty, ?_, by simpa only [hout] using hheld.tail⟩
  simp only [hout, List.length_cons]
  omega

theorem EngineSends.sent_block (h : EngineSends [b] s) : EngineFills [] (engineSent s) := by
  obtain ⟨hst, hempty, hcount, -⟩ := h
  simp only [List.length_singleton] at hcount
  have hend : s.eng.ocnt = 15 := by bv_omega
  simp only [engineSent_of_drain hst, if_pos hend]
  exact ⟨rfl, by simp [hempty], by simp, holdsAt_nil _ _⟩

theorem EngineFills.filling (step : BlockStep) (h : EngineFills hs s) : (enginePipeline step).filling s = true := by
  simp [enginePipeline, h.state]

theorem EngineFills.receive_data (h : EngineFills hs s) (hmore : hs.length + 1 < 16) (b : Byte) :
    EngineFills (hs ++ [b]) (engineReceive (.data b) s) := by
  obtain ⟨hst, hcount, hroom, hheld⟩ := h
  have hsnoc := hheld.snoc hroom b
  rw [← hcount] at hsnoc
  have hne : s.eng.icnt ≠ 15 := by bv_omega
  simp only [engineReceive_data hst, if_neg hne]
  exact ⟨rfl, by simp; bv_omega, by simpa using hmore, hsnoc⟩

/-- The sixteenth byte completes the block. -/
theorem EngineFills.receive_last (h : EngineFills hs s) (hfull : hs.length + 1 = 16) (b : Byte) :
    ∃ x : Block, x.toList = hs ++ [b] ∧ EngineFull x (engineReceive (.data b) s) := by
  obtain ⟨hst, hcount, hroom, hheld⟩ := h
  have hsnoc := hheld.snoc hroom b
  rw [← hcount] at hsnoc
  have heq : s.eng.icnt = 15 := by bv_omega
  simp only [engineReceive_data hst, if_pos heq]
  exact ⟨_, hsnoc.toList_eq (by simpa using hfull), rfl, rfl⟩

theorem EngineFills.receive_eos (h : EngineFills hs s) :
    (engineReceive (.term .eos) s).eng.est = if hs = [] then .term .eos else .term (.fail .lce) := by
  have hnil : s.eng.icnt = 0 ↔ hs = [] := by rw [← List.length_eq_zero_iff, ← h.count]; bv_omega
  simp only [engineReceive_eos, hnil]

theorem EngineFull.inner (step : BlockStep) (h : EngineFull x s) :
    (enginePipeline step).inner s = some (engineXform step s) := by
  simp [enginePipeline, engineInner, h.state]

/-- The block step on the block held. -/
theorem EngineFull.xform (h : EngineFull x s) (hvalid : s.sched.rkn = 11) :
    EngineSends (blockStepOutput m s.sched.rk x s.eng.fb).toList (engineXform (modeStep m) s) ∧
      (engineXform (modeStep m) s).eng.fb = blockStepFeedback m s.sched.rk x s.eng.fb := by
  rw [engineXform_modeStep, if_pos hvalid, h.held]
  exact ⟨⟨rfl, rfl, by simp, holdsAt_toList _⟩, rfl⟩

theorem engineXform_of_empty (hempty : s.sched.rkn ≠ 11) :
    engineXform (modeStep m) s = { s with eng.est := .term (.fail .ise) } := by
  rw [engineXform_modeStep, if_neg hempty]

theorem EngineSends.deliver {ins outs : List Item} (hne : bs ≠ []) (h : EngineSends bs s)
    (hlast : ∀ t, t.sched = s.sched → t.eng.fb = s.eng.fb → EngineFills [] t →
      (enginePipeline (modeStep m)).WillDeliver .engine t ins outs) :
    (enginePipeline (modeStep m)).WillDeliver .engine s ins (bs.map .data ++ outs) := by
  have hframe : ∀ t, (engineSent t).sched = t.sched ∧ (engineSent t).eng.fb = t.eng.fb := fun t =>
    ⟨(engineSent_writesOnly t).sched, engineSent_fb t⟩
  refine .of_sending (fun bs t => EngineSends bs t ∧ t.sched = s.sched ∧ t.eng.fb = s.eng.fb)
    (fun h => h.1.offer_eq) (fun {_ _ _ t} h => ?_) (fun {_ t} h => ?_) hne ⟨h, rfl, rfl⟩
  · obtain ⟨hsends, hsched, hfb⟩ := h
    exact ⟨hsends.sent_more, (hframe t).1.trans hsched, (hframe t).2.trans hfb⟩
  · obtain ⟨hsends, hsched, hfb⟩ := h
    exact hlast _ ((hframe t).1.trans hsched) ((hframe t).2.trans hfb) hsends.sent_block

theorem EngineFills.deliver {xs : List Byte} {t : Terminal} (h : EngineFills hs s) :
    (enginePipeline (modeStep m)).WillDeliver .engine s (Stream.items ⟨xs, t⟩)
      (chainStream m (decide (s.sched.rkn = 11)) s.sched.rk s.eng.fb ⟨hs ++ xs, t⟩).items := by
  induction xs generalizing hs s with
  | nil =>
    refine .of_input (h.filling _) ?_
    rw [List.append_nil]
    obtain _ | e := t
    · rw [chainStream_eos_of_short _ _ _ _ h.room]
      refine .of_term (enginePipeline_runBy m) (engineOffer_of_term ?_) _
      rw [enginePipeline_receive, h.receive_eos]
      split <;> rfl
    · rw [chainStream_fail_of_short _ _ _ _ h.room]
      exact .of_term (enginePipeline_runBy m) (engineOffer_of_term rfl) _
  | cons b xs ih =>
    have hbytes : hs ++ b :: xs = (hs ++ [b]) ++ xs := by simp
    have hsched : (engineReceive (.data b) s).sched = s.sched := (engineReceive_writesOnly _ s).sched
    have hfb : (engineReceive (.data b) s).eng.fb = s.eng.fb := engineReceive_fb _ s
    refine .of_input (h.filling _) ?_
    rw [hbytes, ← hsched, ← hfb, enginePipeline_receive]
    obtain hmore | hfull := Nat.lt_or_eq_of_le h.room
    · exact ih (h.receive_data hmore b)
    · obtain ⟨x, hx, hfull⟩ := h.receive_last hfull b
      generalize engineReceive (.data b) s = s at hfull ⊢
      rw [← hx]
      refine .of_inner (hfull.inner _) ?_
      by_cases hvalid : s.sched.rkn = 11
      · obtain ⟨hsends, hnext⟩ := hfull.xform (m := m) hvalid
        rw [decide_eq_true hvalid, chainStream_block, items_prependBytes]
        refine hsends.deliver (by simp [← List.length_eq_zero_iff]) fun t hsched hfb hfills => ?_
        have hrest := ih hfills
        rwa [hsched, hfb, hnext, (engineXform_writesOnly m s).sched, decide_eq_true hvalid] at hrest
      · rw [decide_eq_false hvalid, chainStream_block_of_empty, engineXform_of_empty hvalid]
        exact .of_term (enginePipeline_runBy m) (engineOffer_of_term rfl) _

end Engine

/-! ### UNPAD (R273) -/

/-- UNPAD receives, and holds the bytes `hs` of a block of `bsz` bytes. -/
structure UnpadFills (bsz : Byte) (hs : List Byte) (s : State) : Prop where
  state : s.unp.ust = .fill
  size : s.latch.bsz = bsz
  nonzero : 0 < bsz.toNat
  count : s.unp.ucnt.toNat = hs.length
  room : hs.length ≤ bsz.toNat
  held : HoldsAt s.unp.ubuf 0 hs
  notLast : s.unp.ulast = false

/-- UNPAD has the bytes `bs` still to send, up to its limit `lim`, and then, unless they are the last, holds `pend`. -/
structure UnpadSends (bsz lim pend : Byte) (last : Bool) (bs : List Byte) (s : State) : Prop where
  state : s.unp.ust = .flush
  size : s.latch.bsz = bsz
  nonzero : 0 < bsz.toNat
  limit : s.unp.ulim = lim
  pending : last = false → s.unp.upend = pend
  count : s.unp.uout.toNat + bs.length = lim.toNat
  held : HoldsAt s.unp.ubuf s.unp.uout.toNat bs
  last_eq : s.unp.ulast = last

section Full
variable {hs : List Byte} {buf : PadBuffer} {bsz : Byte} (hlen : hs.length = bsz.toNat) (hpos : 0 < bsz.toNat)
  (hheld : HoldsAt buf 0 hs)
include hlen hpos hheld

/-- The last byte of a full block. -/
theorem readAt_last : readAt buf (bsz.toNat - 1) = hs.getLastD 0 := by
  have hne : hs ≠ [] := List.ne_nil_of_length_pos (by omega)
  have hread := hheld (bsz.toNat - 1) (by omega)
  rw [Nat.zero_add] at hread
  rw [hread, List.getLastD_eq_getLast?, List.getLast?_eq_some_getLast hne, Option.getD_some, List.getLast_eq_getElem]
  simp only [hlen]

/-- UNPAD's check of its buffer is the check of the bytes. -/
theorem paddingValid_eq_validPadding : paddingValid buf bsz (hs.getLastD 0) = validPadding bsz.toNat hs := by
  rw [Bool.eq_iff_iff, paddingValid_iff]
  simp only [validPadding, Bool.and_eq_true, bne_iff_ne, ne_eq, decide_eq_true_eq, List.all_eq_true, beq_iff_eq, and_assoc]
  generalize hs.getLastD 0 = n
  refine and_congr (by bv_omega) (and_congr_right fun hle => ⟨fun h b hb => ?_, fun h i hlo hhi => ?_⟩)
  · obtain ⟨k, hk, rfl⟩ := List.mem_iff_getElem.mp hb
    rw [List.length_drop] at hk
    rw [List.getElem_drop, ← hheld _ (by omega), Nat.zero_add]
    exact h _ (by omega) (by omega)
  · rw [← Nat.zero_add i, hheld i (by omega)]
    refine h _ (List.mem_iff_getElem.mpr ⟨i - (hs.length - n.toNat), by rw [List.length_drop]; omega, ?_⟩)
    rw [List.getElem_drop]
    congr 1
    omega

end Full

section Unpad
variable {bsz lim pend : Byte} {last : Bool} {b b' : Byte} {bs hs : List Byte} {s : State}

theorem UnpadSends.offer_eq (h : UnpadSends bsz lim pend last (b :: bs) s) : unpadOffer s = some (.data b) := by
  rw [← h.held.head]
  exact unpadOffer_of_flush h.state

theorem UnpadSends.sent_more (h : UnpadSends bsz lim pend last (b :: b' :: bs) s) :
    UnpadSends bsz lim pend last (b' :: bs) (unpadSent s) := by
  obtain ⟨hst, hsize, hpos, hlim, hpend, hcount, hheld, hlast⟩ := h
  simp only [List.length_cons] at hcount
  have hmore : s.unp.uout + 1 ≠ s.unp.ulim := by bv_omega
  have hout : (s.unp.uout + 1).toNat = s.unp.uout.toNat + 1 := by bv_omega
  simp only [unpadSent_of_flush hst, if_neg hmore]
  refine ⟨hst, hsize, hpos, hlim, hpend, ?_, by simpa only [hout] using hheld.tail, hlast⟩
  simp only [hout, List.length_cons]
  omega

/-- The last byte of a block that is not the last is followed by the next fill, with the pending byte held. -/
theorem UnpadSends.sent_block (h : UnpadSends bsz lim pend false [b] s) : UnpadFills bsz [pend] (unpadSent s) := by
  obtain ⟨hst, hsize, hpos, hlim, hpend, hcount, -, hlast⟩ := h
  simp only [List.length_singleton] at hcount
  have hend : s.unp.uout + 1 = s.unp.ulim := by bv_omega
  simp only [unpadSent_of_flush hst, if_pos hend, hlast, hpend rfl]
  refine ⟨rfl, hsize, hpos, rfl, hpos, ?_, rfl⟩
  simpa using (holdsAt_nil s.unp.ubuf 0).snoc (by simp) pend

theorem UnpadSends.sent_last (h : UnpadSends bsz lim pend true [b] s) : (unpadSent s).unp.ust = .term .eos := by
  obtain ⟨hst, hsize, -, hlim, -, hcount, -, hlast⟩ := h
  simp only [List.length_singleton] at hcount
  have hend : s.unp.uout + 1 = s.unp.ulim := by bv_omega
  simp only [unpadSent_of_flush hst, if_pos hend, hlast, if_true]

theorem UnpadFills.filling (h : UnpadFills bsz hs s) : unpadPipeline.filling s = true := by simp [unpadPipeline, h.state]

theorem UnpadFills.receive_data (h : UnpadFills bsz hs s) (hmore : hs.length < bsz.toNat) (b : Byte) :
    UnpadFills bsz (hs ++ [b]) (unpadReceive (.data b) s) := by
  obtain ⟨hst, hsize, hpos, hcount, hroom, hheld, hlast⟩ := h
  have hsnoc := hheld.snoc (by omega) b
  rw [← hcount] at hsnoc
  have hlt : s.unp.ucnt < s.latch.bsz := by bv_omega
  simp only [unpadReceive_data, if_pos hlt]
  exact ⟨hst, hsize, hpos, by simp; bv_omega, by simpa using hmore, hsnoc, hlast⟩

/-- A byte behind a full block releases it. -/
theorem UnpadFills.receive_next (h : UnpadFills bsz hs s) (hfull : hs.length = bsz.toNat) (b : Byte) :
    UnpadSends bsz bsz b false hs (unpadReceive (.data b) s) := by
  obtain ⟨hst, rfl, hpos, hcount, hroom, hheld, hlast⟩ := h
  have hge : ¬s.unp.ucnt < s.latch.bsz := by bv_omega
  simp only [unpadReceive_data, if_neg hge]
  exact ⟨rfl, rfl, hpos, rfl, fun _ => rfl, by simpa using hfull, hheld, hlast⟩

/-- At the clean end UNPAD ends at once, or it sends what is before the padding of the block it holds. -/
theorem UnpadFills.receive_eos (h : UnpadFills bsz hs s) {r : Stream} (hr : unpadStream bsz.toNat ⟨hs, .eos⟩ = r) :
    (r.bytes = [] ∧ (unpadEnd s).unp.ust = .term r.last) ∨
      (r.bytes ≠ [] ∧ r.last = .eos ∧ UnpadSends bsz (BitVec.ofNat 8 r.bytes.length) 0 true r.bytes (unpadEnd s)) := by
  obtain ⟨hst, rfl, hpos, hcount, hroom, hheld, hlast⟩ := h
  by_cases hnil : hs = []
  · subst hnil
    rw [unpadStream_nil_eos] at hr
    rw [unpadEnd_of_empty (by simpa [BitVec.toNat_eq] using hcount), ← hr]
    exact .inl ⟨rfl, rfl⟩
  have hlen : 0 < hs.length := List.length_pos_iff.mpr hnil
  have hne : s.unp.ucnt ≠ 0 := by bv_omega
  obtain hlt | hfull := Nat.lt_or_eq_of_le hroom
  · rw [unpadStream_eos_of_partial hnil hlt] at hr
    rw [unpadEnd_of_partial hne (by bv_omega), ← hr]
    exact .inl ⟨rfl, rfl⟩
  rw [unpadEnd_of_full hne (by bv_omega), readAt_last hfull hpos hheld, paddingValid_eq_validPadding hfull hpos hheld]
  by_cases hvalid : validPadding s.latch.bsz.toNat hs = true
  · have hle := le_of_validPadding hvalid
    rw [unpadStream_of_valid hnil (by simp [hfull]) hvalid] at hr
    rw [if_pos hvalid]
    generalize hs.getLastD 0 = n at hle hr ⊢
    by_cases hall : n = s.latch.bsz
    · rw [hall, hfull, Nat.sub_self] at hr
      rw [if_pos hall, ← hr]
      exact .inl ⟨rfl, rfl⟩
    · have hbytes : r.bytes = hs.take (hs.length - n.toNat) := by rw [← hr]
      have htake : r.bytes.length = (s.latch.bsz - n).toNat := by rw [hbytes, List.length_take]; bv_omega
      rw [if_neg hall, htake, BitVec.ofNat_toNat, BitVec.setWidth_eq]
      have hne : r.bytes ≠ [] := List.ne_nil_of_length_pos (by rw [htake]; bv_omega)
      refine .inr ⟨hne, by rw [← hr], rfl, rfl, hpos, rfl, nofun, ?_, ?_, rfl⟩
      · rw [htake]
        exact Nat.zero_add _
      · rw [hbytes]
        exact hheld.take _
  · rw [unpadStream_of_invalid hfull (by simpa using hvalid)] at hr
    rw [if_neg hvalid, ← hr]
    exact .inl ⟨rfl, rfl⟩

theorem UnpadSends.deliver {ins outs : List Item}
    (hlast : ∀ {b s}, UnpadSends bsz lim pend last [b] s → unpadPipeline.WillDeliver .unpad (unpadSent s) ins outs)
    (hne : bs ≠ []) (h : UnpadSends bsz lim pend last bs s) :
    unpadPipeline.WillDeliver .unpad s ins (bs.map .data ++ outs) :=
  .of_sending (UnpadSends bsz lim pend last) UnpadSends.offer_eq UnpadSends.sent_more hlast hne h

theorem UnpadFills.deliver {xs : List Byte} {t : Terminal} (h : UnpadFills bsz hs s) :
    unpadPipeline.WillDeliver .unpad s (Stream.items ⟨xs, t⟩) (unpadStream bsz.toNat ⟨hs ++ xs, t⟩).items := by
  induction xs generalizing hs s with
  | nil =>
    refine .of_input h.filling ?_
    rw [List.append_nil]
    obtain _ | e := t
    · obtain ⟨hnil, hterm⟩ | ⟨hne, heos, hsends⟩ := h.receive_eos rfl
      · rw [Stream.items, hnil]
        exact .of_term unpadPipeline_runBy (unpadOffer_of_term hterm) _
      · rw [Stream.items, heos]
        exact hsends.deliver (fun h => .of_term unpadPipeline_runBy (unpadOffer_of_term h.sent_last) _) hne
    · rw [unpadStream_fail_of_short h.room]
      exact .of_term unpadPipeline_runBy (unpadOffer_of_term rfl) _
  | cons b xs ih =>
    refine .of_input h.filling ?_
    obtain hmore | hfull := Nat.lt_or_eq_of_le h.room
    · have hbytes : hs ++ b :: xs = (hs ++ [b]) ++ xs := by simp
      rw [hbytes]
      exact ih (h.receive_data hmore b)
    · have hpos := h.nonzero
      rw [unpadStream_block hfull hpos (by simp), items_prependBytes]
      exact (h.receive_next hfull b).deliver (fun h => ih h.sent_block) (List.ne_nil_of_length_pos (by omega))

end Unpad

/-! ### ONESHOT (R141, R187, R206) -/

/-- ONESHOT has the bytes `bs` of its block result still to send. -/
structure BlockSends (bs : List Byte) (s : State) : Prop where
  state : s.one.ost = .emit
  count : s.one.oj.toNat + bs.length = 16
  held : HoldsAt s.core.sreg s.one.oj.toNat bs

section Block
variable {b b' : Byte} {bs : List Byte} {s : State}

theorem BlockSends.of_computed {y : Block} (hemit : s.one.ost = .emit) (hstart : s.one.oj = 0) (hresult : s.core.sreg = y) :
    BlockSends y.toList s :=
  ⟨hemit, by simp [hstart], by simpa [hstart, hresult] using holdsAt_toList y⟩

theorem blockOffer_of_term {t : Terminal} (hst : s.one.ost = .term t) : blockOffer s = some (.term t) := by
  simp only [blockOffer, hst]

theorem BlockSends.offer_eq (h : BlockSends (b :: bs) s) : blockOffer s = some (.data b) := by
  rw [← h.held.head]
  simp only [blockOffer, h.state]

theorem BlockSends.sent_more (h : BlockSends (b :: b' :: bs) s) : BlockSends (b' :: bs) (blockSent s) := by
  obtain ⟨hst, hcount, hheld⟩ := h
  simp only [List.length_cons] at hcount
  have hmore : s.one.oj ≠ 15 := by bv_omega
  have hout : (s.one.oj + 1).toNat = s.one.oj.toNat + 1 := by bv_omega
  simp only [blockSent_of_emit hst, if_neg hmore]
  refine ⟨rfl, ?_, by simpa only [hout] using hheld.tail⟩
  simp only [hout, List.length_cons]
  omega

theorem BlockSends.sent_last (h : BlockSends [b] s) : (blockSent s).one.ost = .term .eos := by
  obtain ⟨hst, hcount, -⟩ := h
  simp only [List.length_singleton] at hcount
  have hend : s.one.oj = 15 := by bv_omega
  simp only [blockSent_of_emit hst, if_pos hend]

variable {compute : State → State} (hp : (blockPipeline compute).RunBy .oneshot) (hst : s.one.ost = .compute)
include hp hst

/-- ONESHOT computes a block, sends it and ends. -/
theorem block_deliver {y : Block} (h : BlockSends y.toList (compute s)) (ins : List Item) :
    (blockPipeline compute).WillDeliver .oneshot s ins (Stream.items ⟨y.toList, .eos⟩) := by
  refine .of_inner (t := compute s) (by simp [hst]) ?_
  exact .of_sending BlockSends BlockSends.offer_eq BlockSends.sent_more
    (fun h => .of_term hp (blockOffer_of_term h.sent_last) _) (by simp [← List.length_eq_zero_iff]) h

/-- A block core without a schedule ends at once (R206). -/
theorem block_deliver_of_error {e : Err} (herror : (compute s).one.ost = .term (.fail e)) (ins : List Item) :
    (blockPipeline compute).WillDeliver .oneshot s ins [.term (.fail e)] :=
  .of_inner (t := compute s) (by simp [hst]) (.of_term hp (blockOffer_of_term herror) ins)

end Block

/-- Byte `n` of the round keys, one after another. -/
def roundKeyByte (rk : RoundKeys) (n : Nat) : Byte := readAt (roundKeyAt rk (n / 16)) (n % 16)

/-- The number of the byte that KEYSCHED sends next. -/
def keysPosition (s : State) : Nat := 16 * s.one.oi.toNat + s.one.oj.toNat

/-- ONESHOT has the bytes `bs` of the round keys still to send. -/
structure KeysSends (bs : List Byte) (s : State) : Prop where
  state : s.one.ost = .emit
  valid : s.sched.rkn = 11
  byte_lt : s.one.oj < 16
  count : keysPosition s + bs.length = 176
  held : ∀ k (h : k < bs.length), roundKeyByte s.sched.rk (keysPosition s + k) = bs[k]

theorem getElem_joinBlocks (f : Nat → Block) {q k : Nat} (hk : k < (joinBlocks f q).length) :
    (joinBlocks f q)[k] = readAt (f (k / 16)) (k % 16) := by
  induction q generalizing f k with
  | zero => simp at hk
  | succ q ih =>
    simp only [joinBlocks_succ]
    by_cases hlt : k < 16
    · have hdiv : k / 16 = 0 := by omega
      have hmod : k % 16 = k := by omega
      rw [List.getElem_append_left (by simpa using hlt), hdiv, hmod, readAt_of_lt _ hlt]
      simp
    · have hdiv : k / 16 = (k - 16) / 16 + 1 := by omega
      have hmod : k % 16 = (k - 16) % 16 := by omega
      rw [List.getElem_append_right (by simpa using hlt), hdiv, hmod, ← ih (fun k => f (k + 1)) (by simp at hk ⊢; omega)]
      simp

theorem flatMap_toList_eq_joinBlocks (rk : RoundKeys) : rk.toList.flatMap (·.toList) = joinBlocks (roundKeyAt rk) 11 := by
  have hkeys : rk.toList = (List.range 11).map (roundKeyAt rk) := by
    refine List.ext_getElem (by simp) fun k hk _ => ?_
    rw [Vector.length_toList] at hk
    simp [roundKeyAt_of_lt _ hk]
  rw [hkeys, List.flatMap_map, joinBlocks]

section Keys
variable {b b' : Byte} {bs : List Byte} {s : State}

theorem KeysSends.key_lt (h : KeysSends (b :: bs) s) : s.one.oi < 11 := by
  have hcount := h.count
  simp only [keysPosition, List.length_cons] at hcount
  bv_omega

theorem KeysSends.offer_eq (h : KeysSends (b :: bs) s) : keysOffer s = some (.data b) := by
  have hbyte : roundKeyByte s.sched.rk (keysPosition s) = b := h.held 0 (by simp)
  have hlt : s.one.oj.toNat < 16 := h.byte_lt
  have hdiv : keysPosition s / 16 = s.one.oi.toNat := by unfold keysPosition; omega
  have hmod : keysPosition s % 16 = s.one.oj.toNat := by unfold keysPosition; omega
  rw [roundKeyByte, hdiv, hmod] at hbyte
  simp only [keysOffer, h.state, hbyte]

theorem KeysSends.sent_more (h : KeysSends (b :: b' :: bs) s) : KeysSends (b' :: bs) (keysSent s) := by
  have hoi := h.key_lt
  obtain ⟨hst, hvalid, hlt, hcount, hheld⟩ := h
  have hsent := keysSent_of_emit hst hvalid hoi
  simp only [List.length_cons] at hcount
  have hposition : keysPosition (keysSent s) = keysPosition s + 1 := by
    rw [hsent]
    unfold keysPosition at hcount ⊢
    split <;> simp <;> bv_omega
  have hmore : s.one.oj = 15 → s.one.oi ≠ 10 := fun hj hi => by simp [keysPosition, hi, hj] at hcount; omega
  have hsched : (keysSent s).sched = s.sched := (keysSent_writesOnly s).sched
  refine ⟨?_, by rwa [hsched], ?_, ?_, fun k hk => ?_⟩
  · rw [hsent]
    split
    · next hj => exact if_neg (hmore hj)
    · exact hst
  · rw [hsent]
    split
    · exact (by decide : (0 : BitVec 5) < 16)
    · simp only; bv_omega
  · rw [hposition, List.length_cons]
    omega
  · rw [hposition, hsched, Nat.add_assoc, Nat.add_comm 1]
    exact hheld (k + 1) (by simpa using hk)

theorem KeysSends.sent_last (h : KeysSends [b] s) : (keysSent s).one.ost = .term .eos := by
  have hoi := h.key_lt
  obtain ⟨hst, hvalid, hlt, hcount, -⟩ := h
  simp only [keysPosition, List.length_singleton] at hcount
  have hj : s.one.oj = 15 := by bv_omega
  have hi : s.one.oi = 10 := by bv_omega
  simp only [keysSent_of_emit hst hvalid hoi, if_pos hj, if_pos hi]

/-- ONESHOT starts to read out the eleven round keys. -/
theorem keysSends_computeKeySched (hvalid : s.sched.rkn = 11) :
    KeysSends (s.sched.rk.toList.flatMap (·.toList)) (computeKeySched s) := by
  rw [computeKeySched_eq, flatMap_toList_eq_joinBlocks, if_neg (by simp [hvalid])]
  refine ⟨rfl, hvalid, by simp [BitVec.lt_def], by simp [keysPosition], fun k hk => ?_⟩
  simp [getElem_joinBlocks, roundKeyByte, keysPosition]

theorem keys_deliver (hst : s.one.ost = .compute) (hvalid : s.sched.rkn = 11) (ins : List Item) :
    keysPipeline.WillDeliver .oneshot s ins (Stream.items ⟨s.sched.rk.toList.flatMap (·.toList), .eos⟩) := by
  refine .of_inner (t := computeKeySched s) (by simp [keysPipeline, hst]) ?_
  exact .of_sending KeysSends KeysSends.offer_eq KeysSends.sent_more
    (fun h => .of_term keysPipeline_runBy (keysOffer_of_term h.sent_last) _)
    (by simp [flatMap_toList_eq_joinBlocks, ← List.length_eq_zero_iff]) (keysSends_computeKeySched hvalid)

theorem keys_deliver_of_empty (hst : s.one.ost = .compute) (hempty : s.sched.rkn = 0) (ins : List Item) :
    keysPipeline.WillDeliver .oneshot s ins [.term .eos] := by
  refine .of_inner (t := computeKeySched s) (by simp [keysPipeline, hst])
    (.of_term keysPipeline_runBy (keysOffer_of_term ?_) ins)
  simp [computeKeySched_eq, hempty]

end Keys

end Sys2Proof.Machine
end

section
/-! R306: every command delivers its stream, under every schedule and every pace of the host (45_stream_pipeline.md). -/

namespace Sys2Proof.Machine

open Sys2Proof.Safety

/-! ### The stream of a command as the streams of its workers -/

/-- What a worker of the command `i` does with a stream, for the operands of the command. -/
def workerStream (i : Instr) (key iv blk : Block) (bsz : Nat) : Worker → Stream → Stream
  | .oneshot => streamOf i key iv blk bsz
  | .pad => padStream bsz
  | .engine => chainStream (modeOf i) (decide (keySizeOf i = .k128)) (scheduleOf key) iv
  | .unpad => unpadStream bsz

section Streams
variable {i : Instr} (key iv blk : Block) (bsz : Nat) (x : Stream)

theorem streamOf_of_single {w : Worker} (hw : workersOf i = [w]) :
    streamOf i key iv blk bsz x = workerStream i key iv blk bsz w x := by
  cases i <;> cases hw <;> rfl

theorem streamOf_of_pair {u d : Worker} (hw : workersOf i = [u, d]) :
    streamOf i key iv blk bsz x = workerStream i key iv blk bsz d (workerStream i key iv blk bsz u x) := by
  cases i <;> cases hw <;> rfl

/-- Without a schedule neither the round keys nor the initial value matter. -/
theorem chainStream_empty_congr (m : ChainMode) (rk rk' : RoundKeys) (fb fb' : Block) :
    chainStream m false rk fb x = chainStream m false rk' fb' x := by
  by_cases hlong : 16 ≤ x.bytes.length
  · simp [chainStream, hlong]
  · have hdiv : x.bytes.length / 16 = 0 := by omega
    simp [chainStream, hdiv]

/-- ECB does not look at the initial value. -/
theorem outBlock_ecb_congr {m : ChainMode} (hm : m = .ecbEnc ∨ m = .ecbDec) (rk : RoundKeys) (fb fb' : Block)
    (xs : List Byte) (k : Nat) : outBlock m rk fb xs k = outBlock m rk fb' xs k := by
  obtain rfl | rfl := hm <;> cases k <;> rfl

theorem chainStream_ecb_congr {m : ChainMode} (hm : m = .ecbEnc ∨ m = .ecbDec) (valid : Bool) (rk : RoundKeys)
    (fb fb' : Block) : chainStream m valid rk fb x = chainStream m valid rk fb' x := by
  simp only [chainStream, outBlock_ecb_congr hm rk fb fb']

end Streams

/-! ### The workers at acceptance (R108) -/

section Accepted
variable {i : Instr} {s : State}

theorem acceptCommand_latch (i : Instr) (s : State) : (acceptCommand i s).latch =
    { cmdr := encode i, key := blockOfPort s.env.job.key, ivr := blockOfPort s.env.job.iv,
      blk := blockOfPort s.env.job.blk, bsz := s.env.job.blksz } := by
  rw [acceptCommand_eq]; rfl

theorem acceptCommand_one (hw : .oneshot ∈ workersOf i) : (acceptCommand i s).one.ost = .compute := by
  simp [acceptCommand_eq, hw]

theorem padFills_acceptCommand (hw : .pad ∈ workersOf i) (hsize : blockSizeOk i s.env.job.blksz = true) :
    PadFills s.env.job.blksz [] (acceptCommand i s) := by
  have hpos : 0 < s.env.job.blksz := bsz_pos_of_blockSizeOk hsize (.inl hw)
  rw [acceptCommand_eq]
  simp only [if_pos hw]
  exact ⟨rfl, rfl, rfl, hpos, holdsAt_nil _ _, rfl⟩

theorem engineFills_acceptCommand (hw : .engine ∈ workersOf i) : EngineFills [] (acceptCommand i s) := by
  rw [acceptCommand_eq]
  simp only [if_pos hw]
  exact ⟨rfl, rfl, by simp, holdsAt_nil _ _⟩

theorem unpadFills_acceptCommand (hw : .unpad ∈ workersOf i) (hsize : blockSizeOk i s.env.job.blksz = true) :
    UnpadFills s.env.job.blksz [] (acceptCommand i s) := by
  have hpos : 0 < s.env.job.blksz := bsz_pos_of_blockSizeOk hsize (.inr hw)
  rw [acceptCommand_eq]
  simp only [if_pos hw]
  exact ⟨rfl, rfl, hpos, rfl, by simp, holdsAt_nil _ _, rfl⟩

/-- The schedule is there exactly if the key size has one. -/
theorem valid_acceptCommand (hsize : blockSizeOk i s.env.job.blksz = true) (huses : usesSchedule i = true) :
    (acceptCommand i s).sched.rkn = (if keySizeOf i = .k128 then 11 else 0) ∧
      (keySizeOf i = .k128 → (acceptCommand i s).sched.rk = scheduleOf (blockOfPort s.env.job.key)) := by
  have hinv := runInv_acceptCommand hsize
  have hcount : (acceptCommand i s).sched.rkn = if keySizeOf i = .k128 then 11 else 0 := by
    simpa [huses] using hinv.keyCount
  refine ⟨hcount, fun hk => ?_⟩
  rw [hinv.keys (by rw [hcount, if_pos hk]), acceptCommand_latch]

/-- ENGINE delivers the stream of its mode. -/
theorem engine_deliver_accepted (hw : .engine ∈ workersOf i) (hsize : blockSizeOk i s.env.job.blksz = true) (x : Stream) :
    (enginePipeline (modeStep (modeOf i))).WillDeliver .engine (acceptCommand i s) x.items
      (chainStream (modeOf i) (decide (keySizeOf i = .k128)) (scheduleOf (blockOfPort s.env.job.key))
        (blockOfPort s.env.job.iv) x).items := by
  have huses : usesSchedule i = true := by cases i <;> simp_all [workersOf, usesSchedule]
  obtain ⟨hcount, hkeys⟩ := valid_acceptCommand hsize huses
  have hdel := (engineFills_acceptCommand (s := s) hw).deliver (m := modeOf i) (xs := x.bytes) (t := x.last)
  rw [List.nil_append] at hdel
  by_cases hk : keySizeOf i = .k128
  · rw [decide_eq_true (by rw [hcount, if_pos hk]), hkeys hk] at hdel
    rw [decide_eq_true hk]
    by_cases hfb : usesFeedback i = true
    · have hiv : (acceptCommand i s).eng.fb = blockOfPort s.env.job.iv := by rw [acceptCommand_eq]; simp [hw, hfb]
      rwa [hiv] at hdel
    · have hm : modeOf i = .ecbEnc ∨ modeOf i = .ecbDec := by cases i <;> simp_all [workersOf, usesFeedback, modeOf]
      rwa [chainStream_ecb_congr _ hm _ _ _ (blockOfPort s.env.job.iv)] at hdel
  · rw [decide_eq_false (by rw [hcount, if_neg hk]; decide)] at hdel
    rw [decide_eq_false hk]
    rwa [chainStream_empty_congr] at hdel

/-- ONESHOT delivers the block that the block core leaves, or the error of an empty schedule. -/
theorem computeBlock_deliver_accepted {d : Direction} {k : KeySize} {y : RoundKeys → Block → Block}
    (hw : .oneshot ∈ workersOf i) (hsize : blockSizeOk i s.env.job.blksz = true) (huses : usesSchedule i = true)
    (hk : keySizeOf i = k) (hresult : ∀ rk x, (seqRun d rk x).sreg = y rk x) (ins : List Item) :
    (blockPipeline (computeBlock d)).WillDeliver .oneshot (acceptCommand i s) ins
      (blockStream k (y (scheduleOf (blockOfPort s.env.job.key)) (blockOfPort s.env.job.blk))).items := by
  have hrun := blockPipeline_runBy (computeBlock_writesOnly d) fun _ _ => computeBlock_view d
  have hst : (acceptCommand i s).one.ost = .compute := acceptCommand_one hw
  obtain ⟨hcount, hkeys⟩ := valid_acceptCommand hsize huses
  rw [hk] at hcount hkeys
  by_cases hvalid : k = .k128
  · rw [if_pos hvalid] at hcount
    have hcompute := computeBlock_eq d (acceptCommand i s)
    rw [if_pos hcount] at hcompute
    rw [blockStream, if_pos hvalid]
    refine block_deliver hrun hst (.of_computed (by rw [hcompute]) (by rw [hcompute]) ?_) ins
    rw [hcompute, ← hresult, ← hkeys hvalid, acceptCommand_latch]
  · rw [if_neg hvalid] at hcount
    rw [blockStream, if_neg hvalid]
    refine block_deliver_of_error hrun hst ?_ ins
    rw [computeBlock_eq, if_neg (by rw [hcount]; decide)]

/-- ONESHOT delivers its result (R141, R187, R206). -/
theorem oneshot_deliver_accepted (hw : .oneshot ∈ workersOf i) (hsize : blockSizeOk i s.env.job.blksz = true)
    (ins : List Item) (x : Stream) :
    (pipelineOf i).WillDeliver .oneshot (acceptCommand i s) ins
      (streamOf i (blockOfPort s.env.job.key) (blockOfPort s.env.job.iv) (blockOfPort s.env.job.blk)
        s.env.job.blksz.toNat x).items := by
  have hst : (acceptCommand i s).one.ost = .compute := acceptCommand_one hw
  have hrun := unitOf_runBy hw
  have hlatch := acceptCommand_latch i s
  cases i with
  | subBytes | invSubBytes | shiftRows | invShiftRows | mixColumns | invMixColumns | addRoundKey =>
    refine block_deliver hrun hst (.of_computed rfl rfl ?_) ins
    simp [hlatch, applyPrimitive]
  | blockEnc k => exact computeBlock_deliver_accepted hw hsize rfl rfl (fun rk x => by rw [seqRun_fwd]) ins
  | blockDec k => exact computeBlock_deliver_accepted hw hsize rfl rfl (fun rk x => by rw [seqRun_inv]) ins
  | keySched k =>
    obtain ⟨hcount, hkeys⟩ := valid_acceptCommand hsize rfl
    by_cases hk : k = .k128
    · rw [streamOf, if_pos hk, ← hkeys hk]
      exact keys_deliver hst (hcount.trans (if_pos hk)) ins
    · rw [streamOf, if_neg hk]
      exact keys_deliver_of_empty hst (hcount.trans (if_neg hk)) ins
  | ecbEnc | ecbDec | cbcEnc | cbcDec | ecbEncPad | ecbDecUnpad | cbcEncPad | cbcDecUnpad | pad | unpad =>
    simp [workersOf] at hw

/-- Every worker of an accepted command delivers its stream. -/
theorem unit_deliver_accepted {w : Worker} (hw : w ∈ workersOf i) (hsize : blockSizeOk i s.env.job.blksz = true)
    (x : Stream) :
    (unitOf i w).WillDeliver w (acceptCommand i s) x.items
      (workerStream i (blockOfPort s.env.job.key) (blockOfPort s.env.job.iv) (blockOfPort s.env.job.blk)
        s.env.job.blksz.toNat w x).items := by
  cases w with
  | oneshot => exact oneshot_deliver_accepted hw hsize x.items x
  | pad => exact (padFills_acceptCommand hw hsize).deliver (xs := x.bytes) (t := x.last)
  | engine => exact engine_deliver_accepted hw hsize x
  | unpad => exact (unpadFills_acceptCommand hw hsize).deliver (xs := x.bytes) (t := x.last)

theorem delivering_acceptCommand (hsize : blockSizeOk i s.env.job.blksz = true) (x : Stream) :
    ∃ n, Delivering i n (acceptCommand i s) x.items
      (streamOf i (blockOfPort s.env.job.key) (blockOfPort s.env.job.iv) (blockOfPort s.env.job.blk)
        s.env.job.blksz.toNat x).items := by
  have hpair : ∀ u d, workersOf i = [u, d] → ∃ n, Delivering i n (acceptCommand i s) x.items
      (streamOf i (blockOfPort s.env.job.key) (blockOfPort s.env.job.iv) (blockOfPort s.env.job.blk)
        s.env.job.blksz.toNat x).items := fun u d hw => by
    obtain ⟨n, hup⟩ := unit_deliver_accepted (w := u) (by simp [hw]) hsize x
    obtain ⟨m, hdown⟩ := unit_deliver_accepted (w := d) (by simp [hw]) hsize (workerStream i _ _ _ _ u x)
    rw [streamOf_of_pair _ _ _ _ _ hw]
    exact ⟨n + m, .pair hw hup hdown⟩
  obtain ⟨w, hw⟩ | hw | hw := workersOf_cases i
  · obtain ⟨n, h⟩ := unit_deliver_accepted (w := w) (by simp [hw]) hsize x
    rw [streamOf_of_single _ _ _ _ _ hw]
    exact ⟨n, .single hw h⟩
  · exact hpair _ _ hw
  · exact hpair _ _ hw

end Accepted

end Sys2Proof.Machine
end

section
/-! The life of an offered command: it waits, runs and ends, and what the host has taken is a beginning of its stream
(45_stream_pipeline.md R303, R305, R306). -/

namespace Sys2Proof.Machine

open Sys2Proof.Safety

/-! ### The host's moves -/

/-- One edge after which the host's next move is due. -/
structure Steps (s t : State) : Prop where
  step_eq : step s = .next t
  moves : t.env.moves = s.env.moves.tail
  rest : t.env.rest = s.env.rest

theorem Steps.undisturbed {s t : State} (h : Steps s t) (hcalm : undisturbed s) : undisturbed t := by
  intro m hm
  refine hcalm m ?_
  rw [h.moves, h.rest, List.mem_cons] at hm
  exact List.mem_cons.mpr (hm.imp_right List.mem_of_mem_tail)

theorem calm_of_undisturbed {s : State} (h : undisturbed s) : (inPorts s).rst = false ∧ (inPorts s).abort = false := by
  have hmove : currentMove s = { s.env.rest with go := true } ∨ currentMove s ∈ s.env.moves := by
    unfold currentMove
    cases s.env.moves with
    | nil => exact .inl rfl
    | cons m ms => exact .inr (List.mem_cons_self ..)
  show (currentMove s).rst = false ∧ (currentMove s).abort = false
  obtain hm | hm := hmove
  · rw [hm]
    exact h s.env.rest (List.mem_cons_self ..)
  · exact h _ (List.mem_cons_of_mem _ hm)

/-- At the coming edge the host makes every offer and takes every item, and every enabled step falls on it. -/
structure Eager (s : State) : Prop where
  offerCmd : (currentMove s).offerCmd = true
  offerIn : (currentMove s).offerIn = true
  outReady : (currentMove s).outReady = true
  outTermReady : (currentMove s).outTermReady = true
  go : (currentMove s).go = true

theorem eager_of_willing {s : State} (hwilling : willing s) (hmoves : s.env.moves = []) : Eager s := by
  have hmove : currentMove s = { s.env.rest with go := true } := by rw [currentMove, hmoves]; rfl
  obtain ⟨hcmd, hin, hout, hterm⟩ := hwilling
  exact ⟨by rw [hmove]; exact hcmd, by rw [hmove]; exact hin, by rw [hmove]; exact hout, by rw [hmove]; exact hterm,
    by rw [hmove]⟩

/-! ### Progress: when the host is eager, something happens at every edge of a running command -/

section Progress
variable {s : State} (heager : Eager s)
include heager

theorem inner_of_eager {p : Pipeline} (h : p.innerAt s = none) : p.inner s = none := by
  simpa [Pipeline.innerAt, heager.go] using h

theorem offer_of_eager {p : Pipeline} (h : p.outputAt s = none) : p.offer s = none := by
  have hready : (inPorts s).outReady = true := heager.outReady
  have hterm : (inPorts s).outTermReady = true := heager.outTermReady
  rcases hoffer : p.offer s with _ | (b | t)
  · rfl
  · simp [Pipeline.outputAt, hoffer, hready] at h
  · simp [Pipeline.outputAt, hoffer, hterm] at h

theorem input_of_eager {x : Item} {ins : List Item} (h : List.Forall₂ OfferedAs s.env.input (x :: ins)) :
    ∃ y, arrivingItem s = some y := by
  cases hin : s.env.input with
  | nil => simp [hin] at h
  | cons o rest =>
    have hoffer : currentOffer s = some o := by simp [currentOffer, heager.offerIn, hin]
    rw [arrivingItem_eq, hoffer]
    rcases o with b | f | ⟨b, f⟩
    · exact ⟨_, rfl⟩
    · exact ⟨_, rfl⟩
    · by_cases hrace : (currentMove s).raceTerm = true <;> simp [hrace]

/-- The delivery of an unfinished command has a next action, and it is enabled. -/
theorem Delivering.progress {i : Instr} {n : Nat} {ins outs : List Item} (h : Delivering i n s ins outs)
    (hoffers : List.Forall₂ OfferedAs s.env.input ins) (hun : Unfinished i s) :
    ¬((pipelineOf i).innerAt s = none ∧ (pipelineOf i).inputAt s = none ∧ (pipelineOf i).outputAt s = none) := by
  rintro ⟨hinner, hin, hout⟩
  replace hinner := inner_of_eager heager hinner
  replace hout := offer_of_eager heager hout
  have hnoInput : (pipelineOf i).filling s = true → ∀ x rest, ins ≠ x :: rest := by
    rintro hfill x rest rfl
    obtain ⟨y, hy⟩ := input_of_eager heager hoffers
    simp [Pipeline.inputAt, hfill, hy] at hin
  cases h with
  | @single w _ _ _ _ hw h =>
    have hlast : (workersOf i).getLast? = some w := by rw [hw]; rfl
    rw [pipelineOf_of_single hw] at hinner hout hnoInput
    cases h with
    | done _ hdone => simp [hun w hlast] at hdone
    | inner h => simp [hinner] at h
    | input h => exact hnoInput h _ _ rfl
    | output h => simp [hout] at h
  | @pair u d _ _ _ _ _ _ hw hup hdown =>
    have hlast : (workersOf i).getLast? = some d := by rw [hw]; rfl
    rw [pipelineOf_of_pair hw] at hinner hout hnoInput
    simp only [Pipeline.link, Option.or_eq_none_iff] at hinner hout hnoInput
    obtain ⟨hinnerU, hinnerD, htransfer⟩ := hinner
    cases hdown with
    | done _ hdone => simp [hun d hlast] at hdone
    | inner h => simp [hinnerD] at h
    | output h => simp [hout] at h
    | input hfill =>
      cases hup with
      | inner h => simp [hinnerU] at h
      | input h => exact hnoInput h _ _ rfl
      | output h => simp [Pipeline.transfer, hfill, h] at htransfer

end Progress

/-! ### The three stages of a command -/

/-- The command runs; `before` was taken before it, and `n` actions are left to deliver `items`. -/
structure Running (i : Instr) (before items : List Item) (n : Nat) (s : State) : Prop where
  run : s.top = .run
  inv : RunInv i s
  owes : Owes i before items n s
  lastCommand : s.env.cmdValid = false

/-- The command has ended and all its items have been taken. -/
structure Finished (before items : List Item) (s : State) : Prop where
  idle : s.top = .idle
  lastCommand : s.env.cmdValid = false
  taken : s.env.taken = before ++ items

section Stages
variable {i : Instr} {before items : List Item} {n : Nat} {s : State}

theorem Owes.closeEdge (h : Owes i before items n s) : Owes i before items n (closeEdge s) := by
  obtain ⟨given, ins, outs, htaken, hitems, hoffers, hdel, hend⟩ := h
  exact ⟨given, ins, outs, htaken, hitems, hoffers, hdel.withHost .., hend⟩

theorem Running.step (h : Running i before items n s) (hcalm : undisturbed s) :
    ∃ t, Steps s t ∧ (Finished before items t ∨ ∃ m, Running i before items m t ∧ (Eager s → m < n)) := by
  obtain ⟨hrun, hinv, howes, hlast⟩ := h
  obtain ⟨hrst, habt⟩ := calm_of_undisturbed hcalm
  have hframe := edge_framed i s
  refine ⟨_, ⟨step_of_runInv hinv hrun hrst habt, by simp [hframe.moves], by simp [hframe.rest]⟩, ?_⟩
  have hafter : ∃ m, Owes i before items m ((pipelineOf i).edge s) ∧ (Eager s → m < n) := by
    obtain ⟨hinner, hin, hout, hsame⟩ | ⟨m, hm, hafter⟩ := howes.edge
    · refine ⟨n, hsame.symm ▸ howes, fun heager => ?_⟩
      obtain ⟨given, ins, outs, -, -, hoffers, hdel, -⟩ := howes
      exact absurd ⟨hinner, hin, hout⟩ (hdel.progress heager hoffers hinv.unfinished)
    · exact ⟨m, hafter, fun _ => hm⟩
  obtain ⟨m, hafter, hless⟩ := hafter
  cases htop : ((pipelineOf i).edge s).top with
  | idle =>
    obtain ⟨given, ins, outs, htaken, hitems, -, -, hend⟩ := hafter
    left
    refine ⟨htop, by simp [hframe.cmdValid, hlast], ?_⟩
    rw [← hitems, hend htop, List.append_nil]
    exact htaken
  | run =>
    right
    obtain ⟨-, hinv' | hidle⟩ := runInv_edge hinv
    · refine ⟨m, ⟨htop, ?_, hafter.closeEdge, by simp [hframe.cmdValid, hlast]⟩, hless⟩
      rw [closeEdge_eq_withHost]
      exact runInv_withHost hinv' ..
    · simp [htop] at hidle

theorem Finished.step (h : Finished before items s) (hcalm : undisturbed s) :
    ∃ t, Steps s t ∧ Finished before items t := by
  obtain ⟨hrst, habt⟩ := calm_of_undisturbed hcalm
  have hquiet : (inPorts s).cmdValid = false := by simp [inPorts, h.lastCommand]
  exact ⟨_, ⟨step_of_quiet hrst habt h.idle hquiet, rfl, rfl⟩, h.idle, h.lastCommand, h.taken⟩

variable {xs : List Byte} {failed : Bool}

/-- At its acceptance a command owes its whole stream. -/
theorem running_of_offered (h : Offered i xs failed s) :
    ∃ n, Running i s.env.taken (promised i xs failed s).items n (closeEdge (acceptCommand i s)) := by
  have henv : (acceptCommand i s).env = (hostAccepted s).env := by rw [acceptCommand_eq]
  obtain ⟨n, hdel⟩ := delivering_acceptCommand h.legal ⟨xs, inputTerminal failed⟩
  have howes : Owes i s.env.taken (promised i xs failed s).items n (acceptCommand i s) := by
    refine ⟨[], _, _, by simp [henv], List.nil_append _, ?_, hdel, by simp⟩
    rw [henv, hostAccepted_input, h.fresh, h.feed]
    exact offeredAs_offersOf xs failed
  have hinv := runInv_acceptCommand h.legal
  refine ⟨n, by simp, ?_, howes.closeEdge, ?_⟩
  · rw [closeEdge_eq_withHost]
    exact runInv_withHost hinv ..
  · simp [henv, hostAccepted, h.only]

/-- An offered command is accepted, or goes on being offered. -/
theorem offered_step (h : Offered i xs failed s) :
    ∃ t, Steps s t ∧ ((∃ n, Running i s.env.taken (promised i xs failed s).items n t) ∨
      (¬Eager s ∧ Offered i xs failed t ∧ t.env.taken = s.env.taken ∧
        promised i xs failed t = promised i xs failed s)) := by
  obtain ⟨hrst, habt⟩ := calm_of_undisturbed h.calm
  cases hvalid : (inPorts s).cmdValid with
  | true =>
    have hdec : decode (inPorts s).cmd = some i := by
      have hword : (inPorts s).cmd = encode i := h.word
      rw [hword, decode_encode]
    refine ⟨_, ⟨step_of_legal h.idle hrst habt hvalid hdec h.legal, ?_, ?_⟩, .inl (running_of_offered h)⟩
    · simp [acceptCommand_eq]
    · rw [acceptCommand_eq]
      simp [hostAccepted, h.only]
  | false =>
    have hstep := step_of_quiet hrst habt h.idle hvalid
    have hsteps : Steps s (closeEdge s) := ⟨hstep, rfl, rfl⟩
    refine ⟨_, hsteps, .inr ⟨fun heager => ?_, ?_, rfl, rfl⟩⟩
    · simp [inPorts, h.valid, heager.offerCmd] at hvalid
    · exact ⟨h.idle, h.valid, h.word, h.legal, h.feed, h.fresh, h.only, hsteps.undisturbed h.calm⟩

end Stages

/-! ### Runs -/

theorem runFor_succ {s t : State} (h : Steps s t) (n : Nat) : runFor (n + 1) s = runFor n t := by
  rw [runFor, h.step_eq]

theorem runFor_add (n m : Nat) (s : State) : runFor (n + m) s = (runFor n s).bind (runFor m) := by
  induction n generalizing s with
  | zero => simp [runFor]
  | succ n ih =>
    rw [Nat.succ_add, runFor, runFor]
    cases step s with
    | next t => exact ih t
    | fault f => rfl
    | refused r => rfl

/-- Where an offered command stands: it waits, runs or has ended. -/
inductive Stage (i : Instr) (xs : List Byte) (failed : Bool) (before items : List Item) (s : State) : Prop
  | waiting (h : Offered i xs failed s) (htaken : s.env.taken = before) (hitems : (promised i xs failed s).items = items)
  | running {n : Nat} (h : Running i before items n s)
  | finished (h : Finished before items s)

section Runs
variable {i : Instr} {xs : List Byte} {failed : Bool} {before items : List Item} {s : State}

theorem Stage.step (h : Stage i xs failed before items s) (hcalm : undisturbed s) :
    ∃ t, Steps s t ∧ Stage i xs failed before items t := by
  cases h with
  | waiting h htaken hitems =>
    obtain ⟨t, hstep, ⟨n, hrun⟩ | ⟨-, hoffered, htaken', hitems'⟩⟩ := offered_step h
    · rw [htaken, hitems] at hrun
      exact ⟨t, hstep, .running hrun⟩
    · exact ⟨t, hstep, .waiting hoffered (htaken'.trans htaken) (by rw [hitems', hitems])⟩
  | running h =>
    obtain ⟨t, hstep, hfin | ⟨m, hrun, -⟩⟩ := h.step hcalm
    · exact ⟨t, hstep, .finished hfin⟩
    · exact ⟨t, hstep, .running hrun⟩
  | finished h =>
    obtain ⟨t, hstep, hfin⟩ := h.step hcalm
    exact ⟨t, hstep, .finished hfin⟩

/-- At every stage what has been taken is a beginning of the stream. -/
theorem Stage.taken (h : Stage i xs failed before items s) : ∃ q, s.env.taken = before ++ items.take q := by
  cases h with
  | waiting _ htaken => exact ⟨0, by simp [htaken]⟩
  | running h =>
    obtain ⟨given, ins, outs, htaken, rfl, -⟩ := h.owes
    exact ⟨given.length, by rw [htaken, List.take_left]⟩
  | finished h => exact ⟨items.length, by rw [h.taken, List.take_length]⟩

theorem Stage.runFor (n : Nat) (h : Stage i xs failed before items s) (hcalm : undisturbed s) :
    ∃ t, runFor n s = some t ∧ Stage i xs failed before items t ∧ undisturbed t ∧ t.env.moves = s.env.moves.drop n ∧
      t.env.rest = s.env.rest := by
  induction n generalizing s with
  | zero => exact ⟨s, rfl, h, hcalm, rfl, rfl⟩
  | succ n ih =>
    obtain ⟨t, hstep, ht⟩ := h.step hcalm
    obtain ⟨u, hrun, hu, hcalm', hmoves, hrest⟩ := ih ht (hstep.undisturbed hcalm)
    exact ⟨u, (runFor_succ hstep n).trans hrun, hu, hcalm', by rw [hmoves, hstep.moves, List.drop_tail],
      hrest.trans hstep.rest⟩

/-! ### Under a willing host the command ends -/

/-- The listed moves are over, and the host is willing from now on. -/
structure Settled (s : State) : Prop where
  calm : undisturbed s
  willing : willing s
  moves : s.env.moves = []

theorem Settled.eager (h : Settled s) : Eager s := eager_of_willing h.willing h.moves

theorem Settled.step {t : State} (h : Settled s) (hstep : Steps s t) : Settled t :=
  ⟨hstep.undisturbed h.calm, by unfold Safety.willing; rw [hstep.rest]; exact h.willing, by rw [hstep.moves, h.moves]; rfl⟩

theorem Running.finishes {n : Nat} (h : Running i before items n s) (hsettled : Settled s) :
    ∃ k t, runFor k s = some t ∧ Finished before items t := by
  induction n using Nat.strong_induction_on generalizing s with
  | _ n ih =>
    obtain ⟨t, hstep, hfin | ⟨m, hrun, hless⟩⟩ := h.step hsettled.calm
    · exact ⟨1, t, runFor_succ hstep 0, hfin⟩
    · obtain ⟨k, u, hk, hfin⟩ := ih m (hless hsettled.eager) hrun (hsettled.step hstep)
      exact ⟨k + 1, u, (runFor_succ hstep k).trans hk, hfin⟩

theorem Stage.finishes (h : Stage i xs failed before items s) (hsettled : Settled s) :
    ∃ k t, Safety.runFor k s = some t ∧ Finished before items t := by
  cases h with
  | waiting h htaken hitems =>
    obtain ⟨t, hstep, ⟨n, hrun⟩ | ⟨hlazy, -⟩⟩ := offered_step h
    · rw [htaken, hitems] at hrun
      obtain ⟨k, u, hk, hfin⟩ := hrun.finishes (hsettled.step hstep)
      exact ⟨k + 1, u, (runFor_succ hstep k).trans hk, hfin⟩
    · exact absurd hsettled.eager hlazy
  | running h => exact h.finishes hsettled
  | finished h => exact ⟨0, s, rfl, h⟩

/-- R306: what an offered command delivers does not depend on the schedule. -/
theorem delivers_promised (h : Offered i xs failed s) :
    (∀ n, ∃ t q, Safety.runFor n s = some t ∧ t.env.taken = s.env.taken ++ (promised i xs failed s).items.take q) ∧
    (willing s → ∃ n t, Safety.runFor n s = some t ∧ t.top = .idle ∧ t.env.cmdValid = false ∧
      t.env.taken = s.env.taken ++ (promised i xs failed s).items) := by
  have hstage : Stage i xs failed s.env.taken (promised i xs failed s).items s := .waiting h rfl rfl
  refine ⟨fun n => ?_, fun hwilling => ?_⟩
  · obtain ⟨t, hrun, ht, -⟩ := hstage.runFor n h.calm
    obtain ⟨q, htaken⟩ := ht.taken
    exact ⟨t, q, hrun, htaken⟩
  · obtain ⟨t, hrun, ht, hcalm, hmoves, hrest⟩ := hstage.runFor s.env.moves.length h.calm
    have hsettled : Settled t := ⟨hcalm, by unfold Safety.willing; rw [hrest]; exact hwilling, by simp [hmoves]⟩
    obtain ⟨k, u, hk, hidle, hlast, htaken⟩ := ht.finishes hsettled
    exact ⟨s.env.moves.length + k, u, by rw [runFor_add, hrun]; exact hk, hidle, hlast, htaken⟩

end Runs

/-- Settles O54, as for every command. -/
theorem oneshotCommandsDeliverTheirStream : Obligations.OneshotCommandsDeliverTheirStream := by
  unfold Obligations.OneshotCommandsDeliverTheirStream
  exact fun _ _ _ _ _ h => delivers_promised h

/-- Settles O55, as for every command; the stream of its one worker is `PadFills.deliver`. -/
theorem padDeliversItsStream : Obligations.PadDeliversItsStream := by
  unfold Obligations.PadDeliversItsStream
  exact fun _ _ _ h => delivers_promised h

/-- Settles O56, as for every command; the stream of its one worker is `UnpadFills.deliver`. -/
theorem unpadDeliversItsStream : Obligations.UnpadDeliversItsStream := by
  unfold Obligations.UnpadDeliversItsStream
  exact fun _ _ _ h => delivers_promised h

/-- Settles O57, as for every command; the stream of its one worker is `EngineFills.deliver`. -/
theorem chainingCommandsDeliverTheirStream : Obligations.ChainingCommandsDeliverTheirStream := by
  unfold Obligations.ChainingCommandsDeliverTheirStream
  exact fun _ _ _ _ _ h => delivers_promised h

/-- Settles O58, as for every command; the stream is that of the second worker on that of the first by
`delivering_acceptCommand`. -/
theorem paddedPipelinesDeliverTheComposition : Obligations.PaddedPipelinesDeliverTheComposition := by
  unfold Obligations.PaddedPipelinesDeliverTheComposition
  exact fun _ _ _ _ _ h => delivers_promised h

end Sys2Proof.Machine
end

section
/-! What an idle core's registers hold cannot be observed: two runs that start from the same host go on in lockstep
(10_state.md R39, 60_exceptions.md R353). -/

namespace Sys2Proof.Machine

open Sys2Proof.Safety

/-! ### Lockstep of one unit -/

/-- Two states related by `R` cannot be told apart from outside the unit, and its actions keep them related. -/
structure Pipeline.Lockstep (p : Pipeline) (R : State → State → Prop) : Prop where
  filling : ∀ {s s'}, R s s' → p.filling s' = p.filling s
  offer : ∀ {s s'}, R s s' → p.offer s' = p.offer s
  quiet : ∀ {s s'}, R s s' → p.inner s = none → p.inner s' = none
  inner : ∀ {s s' t}, R s s' → p.inner s = some t → ∃ t', p.inner s' = some t' ∧ R t t'
  receive : ∀ {s s'} (x : Item), R s s' → p.filling s = true → R (p.receive x s) (p.receive x s')
  sent : ∀ {s s' y}, R s s' → p.offer s = some y → R (p.sent s) (p.sent s')

/-- The unit acts alike from now on in the two states. -/
def Pipeline.Alike (p : Pipeline) (s s' : State) : Prop := ∃ R, p.Lockstep R ∧ R s s'

theorem Pipeline.lockstep_alike (p : Pipeline) : p.Lockstep p.Alike where
  filling := fun ⟨_, hR, h⟩ => hR.filling h
  offer := fun ⟨_, hR, h⟩ => hR.offer h
  quiet := fun ⟨_, hR, h⟩ => hR.quiet h
  inner := fun ⟨R, hR, h⟩ ht =>
    let ⟨t', ht', h'⟩ := hR.inner h ht
    ⟨t', ht', R, hR, h'⟩
  receive := fun x ⟨R, hR, h⟩ hfill => ⟨R, hR, hR.receive x h hfill⟩
  sent := fun ⟨R, hR, h⟩ hoffer => ⟨R, hR, hR.sent h hoffer⟩

/-- The relation of states that the worker sees as related ones. -/
def SeenAs (w : Worker) (R : State → State → Prop) (t t' : State) : Prop :=
  ∃ s s', R s s' ∧ SameView w s t ∧ SameView w s' t'

namespace Pipeline.RunBy
variable {p : Pipeline} {w : Worker} (hp : p.RunBy w)
include hp

theorem lockstep_seenAs {R : State → State → Prop} (hR : p.Lockstep R) : p.Lockstep (SeenAs w R) where
  filling := fun ⟨s, s', h, hv, hv'⟩ => by rw [hp.filling_view hv, hp.filling_view hv', hR.filling h]
  offer := fun ⟨s, s', h, hv, hv'⟩ => by rw [hp.offer_view hv, hp.offer_view hv', hR.offer h]
  quiet := fun ⟨s, s', h, hv, hv'⟩ hn => hp.inner_view_none hv' (hR.quiet h (hp.inner_view_none hv.symm hn))
  inner := fun ⟨s, s', h, hv, hv'⟩ ht => by
    obtain ⟨u, hu, hvu⟩ := hp.inner_view hv.symm ht
    obtain ⟨u', hu', h'⟩ := hR.inner h hu
    obtain ⟨t', ht', hvt⟩ := hp.inner_view hv' hu'
    exact ⟨t', ht', u, u', h', hvu.symm, hvt⟩
  receive := fun x ⟨s, s', h, hv, hv'⟩ hfill =>
    ⟨_, _, hR.receive x h ((hp.filling_view hv).symm.trans hfill), hp.receive_view x hv, hp.receive_view x hv'⟩
  sent := fun ⟨s, s', h, hv, hv'⟩ hoffer =>
    ⟨_, _, hR.sent h ((hp.offer_view hv).symm.trans hoffer), hp.sent_view hv, hp.sent_view hv'⟩

theorem alike_view {s s' t t' : State} (h : p.Alike s s') (hv : SameView w s t) (hv' : SameView w s' t') : p.Alike t t' := by
  obtain ⟨R, hR, h⟩ := h
  exact ⟨SeenAs w R, hp.lockstep_seenAs hR, s, s', h, hv, hv'⟩

end Pipeline.RunBy

/-! ### Lockstep of a pipeline -/

section Transfer
variable {up down : Pipeline} {u d : Worker} {s : State} {x : Item}

theorem Pipeline.RunBy.inner_none_of_filling {p : Pipeline} {w : Worker} (hp : p.RunBy w) (h : p.filling s = true) :
    p.inner s = none := by
  by_contra hsome
  obtain ⟨t, ht⟩ := Option.ne_none_iff_exists'.mp hsome
  simp [(hp.inner_alone ht).1] at h

theorem Pipeline.RunBy.inner_none_of_offer {p : Pipeline} {w : Worker} (hp : p.RunBy w) (h : p.offer s = some x) :
    p.inner s = none := by
  by_contra hsome
  obtain ⟨t, ht⟩ := Option.ne_none_iff_exists'.mp hsome
  simp [(hp.inner_alone ht).2] at h

theorem link_inner_of_transfer (hup : up.RunBy u) (hdown : down.RunBy d) (hoffer : up.offer s = some x)
    (hfill : down.filling s = true) : (up.link down).inner s = some (down.receive x (up.sent s)) := by
  simp [Pipeline.link, Pipeline.transfer, hup.inner_none_of_offer hoffer, hdown.inner_none_of_filling hfill, hoffer, hfill]

end Transfer

section Link
variable {up down : Pipeline} {u d : Worker} (hup : up.RunBy u) (hdown : down.RunBy d) (hapart : Apart u d)
include hup hdown hapart

theorem link_lockstep : (up.link down).Lockstep fun s s' => up.Alike s s' ∧ down.Alike s s' where
  filling := fun h => up.lockstep_alike.filling h.1
  offer := fun h => down.lockstep_alike.offer h.2
  quiet := by
    rintro s s' ⟨hu, hd⟩ hn
    simp only [Pipeline.link, Option.or_eq_none_iff] at hn ⊢
    obtain ⟨hnu, hnd, htransfer⟩ := hn
    refine ⟨up.lockstep_alike.quiet hu hnu, down.lockstep_alike.quiet hd hnd, ?_⟩
    simpa [Pipeline.transfer, up.lockstep_alike.offer hu, down.lockstep_alike.filling hd] using htransfer
  inner := by
    rintro s s' t ⟨hu, hd⟩ ht
    obtain ht | ⟨hnu, ht⟩ | ⟨x, hx, hfill, rfl⟩ := link_inner_cases ht
    · obtain ⟨t', ht', hu'⟩ := up.lockstep_alike.inner hu ht
      refine ⟨t', by simp [Pipeline.link, ht'], hu', ?_⟩
      exact hdown.alike_view hd ((hup.inner_writes ht).sameView hapart) ((hup.inner_writes ht').sameView hapart)
    · obtain ⟨t', ht', hd'⟩ := down.lockstep_alike.inner hd ht
      refine ⟨t', by simp [Pipeline.link, up.lockstep_alike.quiet hu hnu, ht'], ?_, hd'⟩
      exact hup.alike_view hu ((hdown.inner_writes ht).sameView hapart.symm) ((hdown.inner_writes ht').sameView hapart.symm)
    · have hx' : up.offer s' = some x := (up.lockstep_alike.offer hu).trans hx
      have hfill' : down.filling s' = true := (down.lockstep_alike.filling hd).trans hfill
      have hviewD : ∀ s, SameView d s (up.sent s) := fun s => (hup.sent_writes s).sameView hapart
      have hviewU : ∀ s, SameView u s (down.receive x s) := fun s => (hdown.receive_writes x s).sameView hapart.symm
      refine ⟨_, link_inner_of_transfer hup hdown hx' hfill', ?_, ?_⟩
      · exact hup.alike_view (up.lockstep_alike.sent hu hx) (hviewU _) (hviewU _)
      · exact down.lockstep_alike.receive x (hdown.alike_view hd (hviewD _) (hviewD _))
          ((hdown.filling_view (hviewD s)).trans hfill)
  receive := fun x ⟨hu, hd⟩ hfill => ⟨up.lockstep_alike.receive x hu hfill,
    hdown.alike_view hd ((hup.receive_writes x _).sameView hapart) ((hup.receive_writes x _).sameView hapart)⟩
  sent := fun ⟨hu, hd⟩ hoffer => ⟨hup.alike_view hu ((hdown.sent_writes _).sameView hapart.symm)
    ((hdown.sent_writes _).sameView hapart.symm), down.lockstep_alike.sent hd hoffer⟩

end Link

/-- Every worker of the command acts alike from now on in the two states. -/
def AllAlike (i : Instr) (s s' : State) : Prop := ∀ w ∈ workersOf i, (unitOf i w).Alike s s'

theorem pipelineOf_lockstep (i : Instr) : (pipelineOf i).Lockstep (AllAlike i) := by
  have hpair : ∀ u d, workersOf i = [u, d] → (pipelineOf i).Lockstep (AllAlike i) := fun u d hw => by
    have hall : AllAlike i = fun s s' => (unitOf i u).Alike s s' ∧ (unitOf i d).Alike s s' := by
      funext s s'
      simp [AllAlike, hw]
    obtain ⟨hu, hd, hapart⟩ := pair_apart hw
    rw [pipelineOf_of_pair hw, hall]
    exact link_lockstep (unitOf_runBy hu) (unitOf_runBy hd) hapart
  obtain ⟨w, hw⟩ | hw | hw := workersOf_cases i
  · have hall : AllAlike i = (unitOf i w).Alike := by
      funext s s'
      simp [AllAlike, hw]
    rw [pipelineOf_of_single hw, hall]
    exact (unitOf i w).lockstep_alike
  · exact hpair _ _ hw
  · exact hpair _ _ hw

theorem AllAlike.withHost {i : Instr} {s s' : State} (h : AllAlike i s s') (top top' : Top) (env env' : Env)
    (edges edges' : Nat) : AllAlike i (withHost top env edges s) (withHost top' env' edges' s') :=
  fun w hw => (unitOf_runBy hw).alike_view (h w hw) (sameView_withHost ..) (sameView_withHost ..)

/-! ### Lockstep of an edge -/

/-- Two states of the running command `i` with the same host and workers that act alike. -/
structure Twins (i : Instr) (s s' : State) : Prop where
  top : s'.top = s.top
  env : s'.env = s.env
  alike : AllAlike i s s'

section Edge
variable {i : Instr} {s s' t : State}

theorem Twins.inner (h : Twins i s s') (ht : (pipelineOf i).inner s = some t) :
    ∃ t', (pipelineOf i).inner s' = some t' ∧ Twins i t t' := by
  have hw := pipelineOf_writesWorkersOnly i
  obtain ⟨t', ht', halike⟩ := (pipelineOf_lockstep i).inner h.alike ht
  exact ⟨t', ht', by rw [(hw.inner _ _ ht').top_eq, (hw.inner _ _ ht).top_eq, h.top],
    by rw [(hw.inner _ _ ht').env_eq, (hw.inner _ _ ht).env_eq, h.env], halike⟩

theorem Twins.input (h : Twins i s s') (hfill : (pipelineOf i).filling s = true) (x : Item) :
    Twins i (hostSent x ((pipelineOf i).receive x s)) (hostSent x ((pipelineOf i).receive x s')) := by
  have hw := pipelineOf_writesWorkersOnly i
  refine ⟨?_, ?_, ((pipelineOf_lockstep i).receive x h.alike hfill).withHost _ _ _ _ _ _⟩
  · simp [(hw.receive x _).top_eq, h.top]
  · simp [(hw.receive x _).env_eq, h.env, hostSent]

theorem Twins.output (h : Twins i s s') {y : Item} (hoffer : (pipelineOf i).offer s = some y) :
    Twins i (hostTook y ((pipelineOf i).sent s)) (hostTook y ((pipelineOf i).sent s')) := by
  have hw := pipelineOf_writesWorkersOnly i
  rw [hostTook_eq_withHost, hostTook_eq_withHost, (hw.sent _).top_eq, (hw.sent _).top_eq, (hw.sent _).env_eq,
    (hw.sent _).env_eq, h.top, h.env]
  exact ⟨rfl, rfl, ((pipelineOf_lockstep i).sent h.alike hoffer).withHost _ _ _ _ _ _⟩

/-- The same parts fall on the edge in both states. -/
theorem Twins.inputAt (h : Twins i s s') : (pipelineOf i).inputAt s' = (pipelineOf i).inputAt s := by
  simp only [Pipeline.inputAt, (pipelineOf_lockstep i).filling h.alike, arrivingItem_congr h.env]

theorem Twins.outputAt (h : Twins i s s') : (pipelineOf i).outputAt s' = (pipelineOf i).outputAt s := by
  simp only [Pipeline.outputAt, (pipelineOf_lockstep i).offer h.alike, inPorts_congr h.env]

theorem Twins.innerAt_none (h : Twins i s s') (hn : (pipelineOf i).innerAt s = none) :
    (pipelineOf i).innerAt s' = none := by
  simp only [Pipeline.innerAt, currentMove_congr h.env] at hn ⊢
  split at hn
  · next hgo => rw [if_pos hgo]; exact (pipelineOf_lockstep i).quiet h.alike hn
  · next hgo => rw [if_neg hgo]

theorem Twins.innerAt_some (h : Twins i s s') (ht : (pipelineOf i).innerAt s = some t) :
    ∃ t', (pipelineOf i).innerAt s' = some t' ∧ Twins i t t' := by
  obtain ⟨t', ht', htwins⟩ := h.inner (inner_of_innerAt ht)
  have hgo : (currentMove s').go = true := by
    rw [currentMove_congr h.env]
    simp only [Pipeline.innerAt, Option.ite_none_right_eq_some] at ht
    exact ht.1
  exact ⟨t', by rw [Pipeline.innerAt, if_pos hgo, ht'], htwins⟩

variable {z z' : State}

theorem Twins.applyPart_inner (h : Twins i s s') :
    Twins i (applyPart (pipelineOf i) s s .inner) (applyPart (pipelineOf i) s' s' .inner) := by
  cases hi : (pipelineOf i).innerAt s with
  | none => rwa [applyPart_inner_of_none hi, applyPart_inner_of_none (h.innerAt_none hi)]
  | some t =>
    obtain ⟨t', hi', ht⟩ := h.innerAt_some hi
    rw [applyPart_inner_of_some hi, applyPart_inner_of_some hi', inner_of_innerAt hi, inner_of_innerAt hi']
    exact ht

theorem Twins.applyPart_input (h : Twins i s s') (hz : Twins i z z')
    (hfill : ∀ x, (pipelineOf i).inputAt s = some x → (pipelineOf i).filling z = true) :
    Twins i (applyPart (pipelineOf i) s z .input) (applyPart (pipelineOf i) s' z' .input) := by
  cases hx : (pipelineOf i).inputAt s with
  | none => rwa [applyPart_input_of_none hx, applyPart_input_of_none (h.inputAt.trans hx)]
  | some x =>
    rw [applyPart_input_of_some hx, applyPart_input_of_some (h.inputAt.trans hx)]
    exact hz.input (hfill x hx) x

theorem Twins.applyPart_output (h : Twins i s s') (hz : Twins i z z')
    (hoffer : ∀ y, (pipelineOf i).outputAt s = some y → (pipelineOf i).offer z = some y) :
    Twins i (applyPart (pipelineOf i) s z .output) (applyPart (pipelineOf i) s' z' .output) := by
  cases hy : (pipelineOf i).outputAt s with
  | none => rwa [applyPart_output_of_none hy, applyPart_output_of_none (h.outputAt.trans hy)]
  | some y =>
    rw [applyPart_output_of_some hy, applyPart_output_of_some (h.outputAt.trans hy)]
    exact hz.output (hoffer y hy)

/-- The first worker still receives after the inner step of the edge. -/
theorem filling_after_inner {x : Item} (hx : (pipelineOf i).inputAt s = some x) :
    (pipelineOf i).filling (applyPart (pipelineOf i) s s .inner) = true := by
  obtain ⟨hfill, -⟩ := filling_of_inputAt hx
  cases hi : (pipelineOf i).innerAt s with
  | none => rwa [applyPart_inner_of_none hi]
  | some t =>
    rw [applyPart_inner_of_some hi, inner_of_innerAt hi]
    exact ((pipelineOf_separate i).inner_input (inner_of_innerAt hi) hfill).1

/-- The last worker still offers its item after the other parts of the edge. -/
theorem offer_after_input {y : Item} (hy : (pipelineOf i).outputAt s = some y) :
    (pipelineOf i).offer (applyPart (pipelineOf i) s (applyPart (pipelineOf i) s s .inner) .input) = some y := by
  have hp := pipelineOf_separate i
  have hoffer := offer_of_outputAt hy
  cases hi : (pipelineOf i).innerAt s with
  | none =>
    rw [applyPart_inner_of_none hi]
    cases hx : (pipelineOf i).inputAt s with
    | none => rwa [applyPart_input_of_none hx]
    | some x =>
      rw [applyPart_input_of_some hx]
      exact (hp.input_output (filling_of_inputAt hx).1 hoffer x).1
  | some t =>
    have hx : (pipelineOf i).inputAt s = none := by simpa [hi, hy] using one_part_idle hp s
    rw [applyPart_input_of_none hx, applyPart_inner_of_some hi, inner_of_innerAt hi]
    exact (hp.inner_output (inner_of_innerAt hi) hoffer).1

theorem Twins.edge (h : Twins i s s') : Twins i ((pipelineOf i).edge s) ((pipelineOf i).edge s') := by
  rw [edge_eq_applyPart, edge_eq_applyPart]
  exact h.applyPart_output (h.applyPart_input h.applyPart_inner fun _ => filling_after_inner) fun _ => offer_after_input

end Edge

/-! ### The workers in lockstep: what they still use of their registers -/

/-- The latches and the schedule are the same; an empty schedule may hold anything. -/
structure SameKeys (s s' : State) : Prop where
  latch : s'.latch = s.latch
  count : s'.sched.rkn = s.sched.rkn
  keys : s.sched.rkn = 11 → s'.sched.rk = s.sched.rk
  valid_or_empty : s.sched.rkn = 11 ∨ s.sched.rkn = 0

theorem SameKeys.act {w w' : Worker} {s s' t t' : State} (h : SameKeys s s') (hw : WritesOnly w s t)
    (hw' : WritesOnly w' s' t') : SameKeys t t' :=
  ⟨by rw [hw'.latch, h.latch, hw.latch], by rw [hw'.sched, h.count, hw.sched],
    by rw [hw'.sched, hw.sched]; exact h.keys, by rw [hw.sched]; exact h.valid_or_empty⟩

/-! #### PAD -/

/-- PAD does the same in both states, with the same bytes. -/
inductive PadAlike (s s' : State) : Prop
  | fill {bsz : Byte} {hs : List Byte} (h : PadFills bsz hs s) (h' : PadFills bsz hs s')
  | send {bsz : Byte} {last : Bool} {b : Byte} {bs : List Byte} (h : PadSends bsz last (b :: bs) s)
      (h' : PadSends bsz last (b :: bs) s')
  | term {t : Terminal} (h : s.pad.pst = .term t) (h' : s'.pad.pst = .term t)
  | done (h : s.pad.pst = .done) (h' : s'.pad.pst = .done)

theorem PadAlike.of_sends {bsz : Byte} {last : Bool} {bs : List Byte} {s s' : State} (hne : bs ≠ [])
    (h : PadSends bsz last bs s) (h' : PadSends bsz last bs s') : PadAlike s s' := by
  obtain ⟨b, bs, rfl⟩ := List.exists_cons_of_ne_nil hne
  exact .send h h'

theorem pad_lockstep : padPipeline.Lockstep PadAlike where
  filling := by
    intro s s' h
    cases h with
    | fill h h' => rw [h.filling, h'.filling]
    | send h h' => simp [padPipeline, h.state, h'.state]
    | term h h' | done h h' => simp [padPipeline, h, h']
  offer := by
    intro s s' h
    cases h with
    | fill h h' => simp [padPipeline, padOffer, h.state, h'.state]
    | send h h' => exact h'.offer_eq.trans h.offer_eq.symm
    | term h h' | done h h' => simp [padPipeline, padOffer, h, h']
  quiet _ _ := rfl
  inner _ h := nomatch h
  receive := by
    intro s s' x h hfill
    cases h with
    | fill h h' =>
      rcases x with b | (_ | e)
      · obtain hmore | hfull := Nat.lt_or_eq_of_le h.room
        · exact .fill (h.receive_data hmore b) (h'.receive_data hmore b)
        · exact .of_sends (by simp) (h.receive_last hfull b) (h'.receive_last hfull b)
      · have hroom := h.room
        exact .of_sends (by simp; omega) h.receive_eos h'.receive_eos
      · exact .term rfl rfl
    | send h => simp [padPipeline, h.state] at hfill
    | term h | done h => simp [padPipeline, h] at hfill
  sent := by
    intro s s' y h hoffer
    cases h with
    | fill h => simp [padPipeline, padOffer, h.state] at hoffer
    | @send bsz last b bs h h' =>
      cases bs with
      | cons b' bs => exact .send h.sent_more h'.sent_more
      | nil =>
        cases last with
        | false => exact .fill h.sent_block h'.sent_block
        | true => exact .term h.sent_last h'.sent_last
    | term h h' => exact .done (by simp [padPipeline, padSent_of_term h]) (by simp [padPipeline, padSent_of_term h'])
    | done h => simp [padPipeline, padOffer, h] at hoffer

/-! #### ENGINE -/

/-- ENGINE does the same in both states, with the same bytes; ECB does not look at the feedback. -/
inductive EngineAct (s s' : State) : Prop
  | fill {hs : List Byte} (h : EngineFills hs s) (h' : EngineFills hs s')
  | full {x : Block} (h : EngineFull x s) (h' : EngineFull x s')
  | send {b : Byte} {bs : List Byte} (h : EngineSends (b :: bs) s) (h' : EngineSends (b :: bs) s')
  | term {t : Terminal} (h : s.eng.est = .term t) (h' : s'.eng.est = .term t)
  | done (h : s.eng.est = .done) (h' : s'.eng.est = .done)

/-- The mode uses the feedback register. -/
def Chains (m : ChainMode) : Prop := m = .cbcEnc ∨ m = .cbcDec

/-- ENGINE acts alike in a mode: it has the same keys and, if the mode uses it, the same feedback. -/
structure EngineAlike (m : ChainMode) (s s' : State) : Prop where
  keys : SameKeys s s'
  feedback : Chains m → s'.eng.fb = s.eng.fb
  act : EngineAct s s'

theorem blockStepOutput_ecb_congr {m : ChainMode} (hm : ¬Chains m) (rk : RoundKeys) (x fb fb' : Block) :
    blockStepOutput m rk x fb' = blockStepOutput m rk x fb := by
  cases m with
  | ecbEnc | ecbDec => rfl
  | cbcEnc | cbcDec => simp [Chains] at hm

theorem engineXform_alike {m : ChainMode} {x : Block} {s s' : State} (hkeys : SameKeys s s')
    (hfb : Chains m → s'.eng.fb = s.eng.fb) (h : EngineFull x s) (h' : EngineFull x s') :
    EngineAlike m (engineXform (modeStep m) s) (engineXform (modeStep m) s') := by
  have hkeys' := hkeys.act (engineXform_writesOnly m s) (engineXform_writesOnly m s')
  by_cases hvalid : s.sched.rkn = 11
  · have hvalid' : s'.sched.rkn = 11 := hkeys.count.trans hvalid
    obtain ⟨hsends, hnext⟩ := h.xform (m := m) hvalid
    obtain ⟨hsends', hnext'⟩ := h'.xform (m := m) hvalid'
    rw [hkeys.keys hvalid] at hsends' hnext'
    have hout : blockStepOutput m s.sched.rk x s'.eng.fb = blockStepOutput m s.sched.rk x s.eng.fb := by
      by_cases hm : Chains m
      · rw [hfb hm]
      · exact blockStepOutput_ecb_congr hm ..
    rw [hout] at hsends'
    obtain ⟨b, bs, hbs⟩ := List.exists_cons_of_ne_nil (l := (blockStepOutput m s.sched.rk x s.eng.fb).toList)
      (by simp [← List.length_eq_zero_iff])
    rw [hbs] at hsends hsends'
    exact ⟨hkeys', fun hm => by rw [hnext', hnext, hfb hm], .send hsends hsends'⟩
  · have hempty' : s'.sched.rkn ≠ 11 := by rwa [hkeys.count]
    refine ⟨hkeys', fun hm => ?_, .term (t := .fail .ise) ?_ ?_⟩
    · rw [engineXform_of_empty hvalid, engineXform_of_empty hempty']
      exact hfb hm
    · rw [engineXform_of_empty hvalid]
    · rw [engineXform_of_empty hempty']

theorem engine_lockstep (m : ChainMode) : (enginePipeline (modeStep m)).Lockstep (EngineAlike m) where
  filling := by
    rintro s s' ⟨-, -, h⟩
    cases h with
    | fill h h' => rw [h.filling, h'.filling]
    | full h h' | send h h' => simp [enginePipeline, h.state, h'.state]
    | term h h' | done h h' => simp [enginePipeline, h, h']
  offer := by
    rintro s s' ⟨-, -, h⟩
    cases h with
    | fill h h' | full h h' => simp [enginePipeline, engineOffer, h.state, h'.state]
    | send h h' => exact h'.offer_eq.trans h.offer_eq.symm
    | term h h' | done h h' => simp [enginePipeline, engineOffer, h, h']
  quiet := by
    rintro s s' ⟨-, -, h⟩ hn
    cases h with
    | full h => simp [h.inner] at hn
    | fill h h' | send h h' => simp [enginePipeline, engineInner, h'.state]
    | term h h' | done h h' => simp [enginePipeline, engineInner, h']
  inner := by
    rintro s s' t ⟨hkeys, hfb, h⟩ ht
    cases h with
    | full h h' =>
      rw [h.inner] at ht
      obtain rfl := Option.some.inj ht
      exact ⟨_, h'.inner _, engineXform_alike hkeys hfb h h'⟩
    | fill h | send h => simp [enginePipeline, engineInner, h.state] at ht
    | term h | done h => simp [enginePipeline, engineInner, h] at ht
  receive := by
    rintro s s' x ⟨hkeys, hfb, h⟩ hfill
    refine ⟨hkeys.act (engineReceive_writesOnly x s) (engineReceive_writesOnly x s'), by simpa using hfb, ?_⟩
    rw [enginePipeline_receive]
    cases h with
    | fill h h' =>
      rcases x with b | (_ | e)
      · obtain hmore | hfull := Nat.lt_or_eq_of_le h.room
        · exact .fill (h.receive_data hmore b) (h'.receive_data hmore b)
        · obtain ⟨x, hx, hfull₁⟩ := h.receive_last hfull b
          obtain ⟨x', hx', hfull₂⟩ := h'.receive_last hfull b
          obtain rfl : x' = x := Vector.toList_inj.mp (hx'.trans hx.symm)
          exact .full hfull₁ hfull₂
      · have hterm := h.receive_eos
        have hterm' := h'.receive_eos
        split at hterm
        · next hnil => exact .term hterm (hterm'.trans (if_pos hnil))
        · next hne => exact .term hterm (hterm'.trans (if_neg hne))
      · exact .term rfl rfl
    | full h | send h => simp [enginePipeline, h.state] at hfill
    | term h | done h => simp [enginePipeline, h] at hfill
  sent := by
    rintro s s' y ⟨hkeys, hfb, h⟩ hoffer
    refine ⟨hkeys.act (engineSent_writesOnly s) (engineSent_writesOnly s'), by simpa [enginePipeline] using hfb, ?_⟩
    cases h with
    | fill h | full h => simp [enginePipeline, engineOffer, h.state] at hoffer
    | @send b bs h h' =>
      cases bs with
      | cons b' bs => exact .send h.sent_more h'.sent_more
      | nil => exact .fill h.sent_block h'.sent_block
    | term h h' =>
      exact .done (by simp [enginePipeline, engineSent_of_term h]) (by simp [enginePipeline, engineSent_of_term h'])
    | done h => simp [enginePipeline, engineOffer, h] at hoffer

/-! #### UNPAD -/

/-- UNPAD does the same in both states, with the same bytes. -/
inductive UnpadAlike (s s' : State) : Prop
  | fill {bsz : Byte} {hs : List Byte} (h : UnpadFills bsz hs s) (h' : UnpadFills bsz hs s')
  | send {bsz lim pend : Byte} {last : Bool} {b : Byte} {bs : List Byte} (h : UnpadSends bsz lim pend last (b :: bs) s)
      (h' : UnpadSends bsz lim pend last (b :: bs) s')
  | term {t : Terminal} (h : s.unp.ust = .term t) (h' : s'.unp.ust = .term t)
  | done (h : s.unp.ust = .done) (h' : s'.unp.ust = .done)

theorem UnpadAlike.of_sends {bsz lim pend : Byte} {last : Bool} {bs : List Byte} {s s' : State} (hne : bs ≠ [])
    (h : UnpadSends bsz lim pend last bs s) (h' : UnpadSends bsz lim pend last bs s') : UnpadAlike s s' := by
  obtain ⟨b, bs, rfl⟩ := List.exists_cons_of_ne_nil hne
  exact .send h h'

theorem unpad_lockstep : unpadPipeline.Lockstep UnpadAlike where
  filling := by
    intro s s' h
    cases h with
    | fill h h' => rw [h.filling, h'.filling]
    | send h h' => simp [unpadPipeline, h.state, h'.state]
    | term h h' | done h h' => simp [unpadPipeline, h, h']
  offer := by
    intro s s' h
    cases h with
    | fill h h' => simp [unpadPipeline, unpadOffer, h.state, h'.state]
    | send h h' => exact h'.offer_eq.trans h.offer_eq.symm
    | term h h' | done h h' => simp [unpadPipeline, unpadOffer, h, h']
  quiet _ _ := rfl
  inner _ h := nomatch h
  receive := by
    intro s s' x h hfill
    cases h with
    | fill h h' =>
      rcases x with b | (_ | e)
      · obtain hmore | hfull := Nat.lt_or_eq_of_le h.room
        · exact .fill (h.receive_data hmore b) (h'.receive_data hmore b)
        · have hpos := h.nonzero
          exact .of_sends (List.ne_nil_of_length_pos (by omega)) (h.receive_next hfull b) (h'.receive_next hfull b)
      · obtain ⟨hnil, hterm⟩ | ⟨hne, -, hsends⟩ := h.receive_eos rfl
        · obtain ⟨-, hterm'⟩ | ⟨hne, -, -⟩ := h'.receive_eos rfl
          · exact .term hterm hterm'
          · exact absurd hnil hne
        · obtain ⟨hnil, -⟩ | ⟨-, -, hsends'⟩ := h'.receive_eos rfl
          · exact absurd hnil hne
          · exact .of_sends hne hsends hsends'
      · exact .term rfl rfl
    | send h => simp [unpadPipeline, h.state] at hfill
    | term h | done h => simp [unpadPipeline, h] at hfill
  sent := by
    intro s s' y h hoffer
    cases h with
    | fill h => simp [unpadPipeline, unpadOffer, h.state] at hoffer
    | @send bsz lim pend last b bs h h' =>
      cases bs with
      | cons b' bs => exact .send h.sent_more h'.sent_more
      | nil =>
        cases last with
        | false => exact .fill h.sent_block h'.sent_block
        | true => exact .term h.sent_last h'.sent_last
    | term h h' =>
      exact .done (by simp [unpadPipeline, unpadSent_of_term h]) (by simp [unpadPipeline, unpadSent_of_term h'])
    | done h => simp [unpadPipeline, unpadOffer, h] at hoffer

/-! #### ONESHOT -/

/-- ONESHOT does the same in both states; `Sends bs` is its having the bytes `bs` still to send. -/
inductive OneshotAct (Sends : List Byte → State → Prop) (s s' : State) : Prop
  | compute (h : s.one.ost = .compute) (h' : s'.one.ost = .compute)
  | send {b : Byte} {bs : List Byte} (h : Sends (b :: bs) s) (h' : Sends (b :: bs) s')
  | term {t : Terminal} (h : s.one.ost = .term t) (h' : s'.one.ost = .term t)
  | done (h : s.one.ost = .done) (h' : s'.one.ost = .done)

theorem OneshotAct.of_sends {Sends : List Byte → State → Prop} {bs : List Byte} {s s' : State} (hne : bs ≠ [])
    (h : Sends bs s) (h' : Sends bs s') : OneshotAct Sends s s' := by
  obtain ⟨b, bs, rfl⟩ := List.exists_cons_of_ne_nil hne
  exact .send h h'

/-- ONESHOT acts alike, with the same keys. -/
structure OneshotAlike (Sends : List Byte → State → Prop) (s s' : State) : Prop where
  keys : SameKeys s s'
  act : OneshotAct Sends s s'

section Oneshot
variable {p : Pipeline} {compute : State → State} {Sends : List Byte → State → Prop}

/-- Two computations from the same latches and keys give the same, so the rest is sending the same bytes. -/
theorem oneshot_lockstep (hp : p.RunBy .oneshot)
    (hinner : ∀ s, p.inner s = if s.one.ost = .compute then some (compute s) else none)
    (hcompute : ∀ {s s'}, SameKeys s s' → s.one.ost = .compute → s'.one.ost = .compute →
      OneshotAct Sends (compute s) (compute s'))
    (hstate : ∀ {bs s}, Sends bs s → s.one.ost = .emit)
    (hoffer : ∀ {b bs s}, Sends (b :: bs) s → p.offer s = some (.data b))
    (hmore : ∀ {b b' bs s}, Sends (b :: b' :: bs) s → Sends (b' :: bs) (p.sent s))
    (hlast : ∀ {b s}, Sends [b] s → (p.sent s).one.ost = .term .eos) : p.Lockstep (OneshotAlike Sends) := by
  have hquiet : ∀ {s}, s.one.ost = .compute → p.offer s = none := fun {s} hst =>
    (hp.inner_alone (by rw [hinner, if_pos hst])).2
  have hend : ∀ {s}, s.one.ost = .done → p.offer s = none := fun {s} hst =>
    (hp.done_quiet (by simp [workerDone, hst])).2.1
  have hterm : ∀ {s t}, s.one.ost = .term t → p.offer s = some (.term t) := fun {s t} hst =>
    hp.offer_term.mpr (by simp [workerTerminal, hst])
  have hdone : ∀ {s t}, s.one.ost = .term t → (p.sent s).one.ost = .done := fun {s t} hst => by
    simpa [workerDone] using hp.sent_term (s := s) (t := t) (by simp [workerTerminal, hst])
  have hnone : ∀ {s}, s.one.ost ≠ .compute → p.inner s = none := fun hst => by rw [hinner, if_neg hst]
  refine ⟨fun _ => by rw [hp.filling_eq, hp.filling_eq]; rfl, ?_, ?_, ?_, fun {s s'} x _ hfill => ?_, ?_⟩
  · rintro s s' ⟨-, h⟩
    cases h with
    | compute h h' => rw [hquiet h, hquiet h']
    | send h h' => rw [hoffer h, hoffer h']
    | term h h' => rw [hterm h, hterm h']
    | done h h' => rw [hend h, hend h']
  · rintro s s' ⟨-, h⟩ hn
    cases h with
    | compute h => simp [hinner, h] at hn
    | send h h' => exact hnone (by simp [hstate h'])
    | term h h' | done h h' => exact hnone (by simp [h'])
  · rintro s s' t ⟨hkeys, h⟩ ht
    cases h with
    | compute h h' =>
      have ht₁ : p.inner s = some (compute s) := by rw [hinner, if_pos h]
      have ht₂ : p.inner s' = some (compute s') := by rw [hinner, if_pos h']
      obtain rfl := Option.some.inj (ht₁.symm.trans ht)
      exact ⟨_, ht₂, hkeys.act (hp.inner_writes ht₁) (hp.inner_writes ht₂), hcompute hkeys h h'⟩
    | send h => simp [hinner, hstate h] at ht
    | term h | done h => simp [hinner, h] at ht
  · rw [hp.filling_eq] at hfill
    cases hfill
  · rintro s s' y ⟨hkeys, h⟩ hy
    refine ⟨hkeys.act (hp.sent_writes s) (hp.sent_writes s'), ?_⟩
    cases h with
    | compute h => simp [hquiet h] at hy
    | @send b bs h h' =>
      cases bs with
      | cons b' bs => exact .send (hmore h) (hmore h')
      | nil => exact .term (hlast h) (hlast h')
    | term h h' => exact .done (hdone h) (hdone h')
    | done h => simp [hend h] at hy

theorem block_lockstep (hp : (blockPipeline compute).RunBy .oneshot)
    (hcompute : ∀ {s s'}, SameKeys s s' → OneshotAct BlockSends (compute s) (compute s')) :
    (blockPipeline compute).Lockstep (OneshotAlike BlockSends) :=
  oneshot_lockstep hp (fun _ => rfl) (fun hkeys _ _ => hcompute hkeys) BlockSends.state BlockSends.offer_eq
    BlockSends.sent_more BlockSends.sent_last

theorem computeBlock_act (d : Direction) {s s' : State} (h : SameKeys s s') :
    OneshotAct BlockSends (computeBlock d s) (computeBlock d s') := by
  rw [computeBlock_eq, computeBlock_eq, h.count, h.latch]
  by_cases hvalid : s.sched.rkn = 11
  · rw [if_pos hvalid, if_pos hvalid, h.keys hvalid]
    exact .of_sends (bs := (seqRun d s.sched.rk s.latch.blk).sreg.toList) (by simp [← List.length_eq_zero_iff])
      (.of_computed rfl rfl rfl) (.of_computed rfl rfl rfl)
  · rw [if_neg hvalid, if_neg hvalid]
    exact .term rfl rfl

theorem keys_lockstep : keysPipeline.Lockstep (OneshotAlike KeysSends) := by
  refine oneshot_lockstep keysPipeline_runBy (fun _ => rfl) (fun {s s'} hkeys _ _ => ?_) KeysSends.state
    KeysSends.offer_eq KeysSends.sent_more KeysSends.sent_last
  obtain hvalid | hempty := hkeys.valid_or_empty
  · have hsends := keysSends_computeKeySched hvalid
    have hsends' := keysSends_computeKeySched (hkeys.count.trans hvalid)
    rw [hkeys.keys hvalid] at hsends'
    exact .of_sends (by simp [flatMap_toList_eq_joinBlocks, ← List.length_eq_zero_iff]) hsends hsends'
  · rw [computeKeySched_eq, computeKeySched_eq, if_pos hempty, if_pos (hkeys.count.trans hempty)]
    exact .term rfl rfl

end Oneshot

/-! ### Lockstep from acceptance on -/

section Accepted
variable {i : Instr} {s s' : State} (henv : s'.env = s.env) (hsize : blockSizeOk i s.env.job.blksz = true)
include henv hsize

theorem sameKeys_acceptCommand : SameKeys (acceptCommand i s) (acceptCommand i s') := by
  have hsize' : blockSizeOk i s'.env.job.blksz = true := by rw [henv]; exact hsize
  have hinv := (runInv_iff.mp (runInv_acceptCommand hsize)).1.fixed
  have hinv' := (runInv_iff.mp (runInv_acceptCommand hsize')).1.fixed
  have hlatch : (acceptCommand i s').latch = (acceptCommand i s).latch := by
    rw [acceptCommand_latch, acceptCommand_latch, henv]
  have hcount : (acceptCommand i s').sched.rkn = (acceptCommand i s).sched.rkn := by
    rw [hinv.keyCount, hinv'.keyCount]
  exact ⟨hlatch, hcount, fun hvalid => by rw [hinv'.keys (hcount.trans hvalid), hinv.keys hvalid, hlatch],
    hinv.rkn_cases.symm⟩

theorem oneshot_alike_acceptCommand (hw : .oneshot ∈ workersOf i) :
    (pipelineOf i).Alike (acceptCommand i s) (acceptCommand i s') := by
  have hkeys := sameKeys_acceptCommand henv hsize
  have hrun := unitOf_runBy hw
  have hstart : ∀ Sends, OneshotAlike Sends (acceptCommand i s) (acceptCommand i s') := fun _ =>
    ⟨hkeys, .compute (acceptCommand_one hw) (acceptCommand_one hw)⟩
  cases i with
  | subBytes | invSubBytes | shiftRows | invShiftRows | mixColumns | invMixColumns | addRoundKey =>
    refine ⟨_, block_lockstep hrun fun {s s'} hkeys => ?_, hstart _⟩
    rw [hkeys.latch]
    exact .of_sends (bs := Vector.toList _) (by simp [← List.length_eq_zero_iff]) (.of_computed rfl rfl rfl)
      (.of_computed rfl rfl rfl)
  | blockEnc | blockDec => exact ⟨_, block_lockstep hrun (computeBlock_act _), hstart _⟩
  | keySched => exact ⟨_, keys_lockstep, hstart _⟩
  | ecbEnc | ecbDec | cbcEnc | cbcDec | ecbEncPad | ecbDecUnpad | cbcEncPad | cbcDecUnpad | pad | unpad =>
    simp [workersOf] at hw

/-- The initial value is all that CBC reads of the feedback register. -/
theorem feedback_acceptCommand (hw : .engine ∈ workersOf i) (hm : Chains (modeOf i)) :
    (acceptCommand i s').eng.fb = (acceptCommand i s).eng.fb := by
  have huses : usesFeedback i = true := by cases i <;> simp_all [workersOf, usesFeedback, modeOf, Chains]
  rw [acceptCommand_eq, acceptCommand_eq]
  simp [hw, huses, henv]

/-- Acceptance leaves nothing that a worker uses to what the registers held. -/
theorem allAlike_acceptCommand : AllAlike i (acceptCommand i s) (acceptCommand i s') := by
  have hsize' : blockSizeOk i s'.env.job.blksz = true := by rw [henv]; exact hsize
  intro w hw
  cases w with
  | oneshot => exact oneshot_alike_acceptCommand henv hsize hw
  | pad =>
    have hfills := padFills_acceptCommand hw hsize'
    rw [henv] at hfills
    exact ⟨_, pad_lockstep, .fill (padFills_acceptCommand hw hsize) hfills⟩
  | engine =>
    exact ⟨_, engine_lockstep _, sameKeys_acceptCommand henv hsize, feedback_acceptCommand henv hsize hw,
      .fill (engineFills_acceptCommand hw) (engineFills_acceptCommand hw)⟩
  | unpad =>
    have hfills := unpadFills_acceptCommand hw hsize'
    rw [henv] at hfills
    exact ⟨_, unpad_lockstep, .fill (unpadFills_acceptCommand hw hsize) hfills⟩

end Accepted

/-! ### Lockstep of the machine -/

/-- The host cannot tell the two states apart, now or later. -/
structure Indistinct (s s' : State) : Prop where
  top : s'.top = s.top
  env : s'.env = s.env
  running : s.top = .run → ∃ i, RunInv i s ∧ RunInv i s' ∧ AllAlike i s s'

/-- Two outcomes of a step that the host cannot tell apart. -/
inductive SameOutcome : Host.Outcome State Fault Refusal → Host.Outcome State Fault Refusal → Prop
  | next {t t' : State} (h : Indistinct t t') : SameOutcome (.next t) (.next t')
  | refused (r r' : Refusal) : SameOutcome (.refused r) (.refused r')

section Step
variable {s s' : State}

theorem indistinct_of_idle (hidle : s.top = .idle) (hidle' : s'.top = .idle) (henv : s'.env = s.env) : Indistinct s s' :=
  ⟨hidle'.trans hidle.symm, henv, fun hrun => by simp [hidle] at hrun⟩

theorem hostAccepted_env_congr (henv : s'.env = s.env) : (hostAccepted s').env = (hostAccepted s).env := by
  simp only [hostAccepted, henv]
  split <;> rfl

theorem refused_of_illegal (h : step s = .refused .reservedCommand ∨ step s = .refused .zeroBlockSize) :
    ∃ r, step s = .refused r :=
  h.elim (⟨_, ·⟩) (⟨_, ·⟩)

/-- An idle core reads nothing but the host. -/
theorem sameOutcome_of_idle (hidle : s.top = .idle) (hidle' : s'.top = .idle) (henv : s'.env = s.env)
    (hrst : (inPorts s).rst = false) (habt : (inPorts s).abort = false) : SameOutcome (step s) (step s') := by
  have hports := inPorts_congr henv
  have hclose : (closeEdge s').env = (closeEdge s).env := by simp [henv]
  have hrst' : (inPorts s').rst = false := by rw [hports]; exact hrst
  have habt' : (inPorts s').abort = false := by rw [hports]; exact habt
  cases hvalid : (inPorts s).cmdValid with
  | false =>
    have hvalid' : (inPorts s').cmdValid = false := by rw [hports]; exact hvalid
    rw [step_of_quiet hrst habt hidle hvalid, step_of_quiet hrst' habt' hidle' hvalid']
    exact .next (indistinct_of_idle hidle hidle' hclose)
  | true =>
    have hvalid' : (inPorts s').cmdValid = true := by rw [hports]; exact hvalid
    by_cases hlegal : ∃ i, decode (inPorts s).cmd = some i ∧ blockSizeOk i (inPorts s).blksz = true
    · obtain ⟨i, hdec, hsize⟩ := hlegal
      have hsize' : blockSizeOk i (inPorts s').blksz = true := by rw [hports]; exact hsize
      rw [step_of_legal hidle hrst habt hvalid hdec hsize,
        step_of_legal hidle' hrst' habt' hvalid' (by rw [hports]; exact hdec) hsize']
      have haccepted : (acceptCommand i s').env = (acceptCommand i s).env := by
        rw [acceptCommand_eq, acceptCommand_eq]
        exact hostAccepted_env_congr henv
      rw [closeEdge_eq_withHost, closeEdge_eq_withHost]
      refine .next ⟨by simp [withHost], by simp [withHost, haccepted], fun _ => ⟨i, ?_, ?_, ?_⟩⟩
      · exact runInv_withHost (runInv_acceptCommand hsize) ..
      · exact runInv_withHost (runInv_acceptCommand hsize') ..
      · exact (allAlike_acceptCommand henv hsize).withHost _ _ _ _ _ _
    · have hlegal' : ¬∃ i, decode (inPorts s').cmd = some i ∧ blockSizeOk i (inPorts s').blksz = true := by
        rw [hports]; exact hlegal
      obtain ⟨r, hr⟩ := refused_of_illegal (step_of_illegal hidle hrst habt hvalid hlegal)
      obtain ⟨r', hr'⟩ := refused_of_illegal (step_of_illegal hidle' hrst' habt' hvalid' hlegal')
      rw [hr, hr']
      exact .refused r r'

theorem Indistinct.sameOutcome (h : Indistinct s s') : SameOutcome (step s) (step s') := by
  have hports := inPorts_congr h.env
  cases hrst : (inPorts s).rst
  case true =>
    rw [step_of_rst hrst, step_of_rst (by rw [hports]; exact hrst)]
    exact .next (indistinct_of_idle rfl rfl (by simp [h.env]))
  have hrst' : (inPorts s').rst = false := by rw [hports]; exact hrst
  cases habt : (inPorts s).abort
  case true =>
    rw [step_of_abort hrst habt, step_of_abort hrst' (by rw [hports]; exact habt)]
    exact .next (indistinct_of_idle (abortEdge_top s) (abortEdge_top s') (by simp [h.env]))
  have habt' : (inPorts s').abort = false := by rw [hports]; exact habt
  cases htop : s.top with
  | idle => exact sameOutcome_of_idle htop (h.top.trans htop) h.env hrst habt
  | run =>
    obtain ⟨i, hinv, hinv', halike⟩ := h.running htop
    obtain ⟨htop', henv', halike'⟩ := (Twins.mk h.top h.env halike).edge
    rw [step_of_runInv hinv htop hrst habt, step_of_runInv hinv' (h.top.trans htop) hrst' habt', closeEdge_eq_withHost,
      closeEdge_eq_withHost]
    refine .next ⟨htop', by simp [withHost, henv'], fun hrun => ⟨i, ?_, ?_, halike'.withHost _ _ _ _ _ _⟩⟩
    · obtain ⟨-, hnext | hidle⟩ := runInv_edge hinv
      · exact runInv_withHost hnext ..
      · simp [withHost, hidle] at hrun
    · obtain ⟨-, hnext | hidle⟩ := runInv_edge hinv'
      · exact runInv_withHost hnext ..
      · rw [htop'] at hidle
        simp [withHost, hidle] at hrun

theorem Indistinct.runFor_eq (n : Nat) (h : Indistinct s s') :
    (runFor n s').map (fun t => (t.top, t.env)) = (runFor n s).map fun t => (t.top, t.env) := by
  induction n generalizing s s' with
  | zero => simp [Safety.runFor, h.top, h.env]
  | succ n ih =>
    have hstep := h.sameOutcome
    rw [Safety.runFor, Safety.runFor]
    generalize step s = o at hstep
    generalize step s' = o' at hstep
    cases hstep with
    | next ht => exact ih ht
    | refused => rfl

end Step

/-- Settles O59: the two runs go on in lockstep, for what acceptance leaves in a register no worker reads before writing it. -/
theorem residueIsUnobservable : Obligations.ResidueIsUnobservable := by
  unfold Obligations.ResidueIsUnobservable
  exact fun n s s' hidle hidle' henv => (indistinct_of_idle hidle hidle' henv).runFor_eq n

end Sys2Proof.Machine
end
